-- ==== Sys2Proof/Word.lean ====
section
/-! DEFINITION. The two word widths of the hardware (`00_scope.md` section 5): bytes on the wire, and the 16-bit
words of the V2 length and check fields. Everything else (counts, lengths, addresses as operands) is a natural number. -/

namespace Sys2Proof

/-- "A *byte* is 8 bits, an unsigned value 0 to 255." -/
abbrev Byte := BitVec 8

/-- The 16-bit words of the V2 length and CRC fields (R62, R112). -/
abbrev Word := BitVec 16

end Sys2Proof
end

