-- ==== Sys2Proof/Config.lean ====
section
/-! DEFINITION. The parameters of `00_scope.md` section 4: their types, and the constants that no rule leaves open. The
values a later test could show wrong (the instruction codes, the CRC parameters, the four switches) stand in
`Machine/Parameters.lean`. -/

namespace Sys2Proof

/-- REV, the protocol revision (R9, R21): V1 is encoded 0, V2 is encoded 1. -/
inductive Rev | v1 | v2
  deriving DecidableEq, Repr, Inhabited

/-- The closed Instruction enumeration of R69, in the document's order. -/
inductive WireInstr
  | ping | read | write | registeredWrite | triggerAction | factoryReset | reboot | clear | controlTableBackup
  | statusReturn | syncRead | syncWrite | fastSyncRead | bulkRead | bulkWrite | fastBulkRead
  deriving DecidableEq, Repr, Inhabited

/-- The six error kinds of R175, in the order of its table. -/
inductive ErrorKind
  | timeout | badMarker | frameTooShort | lengthMismatch | integrityMismatch | transportFailure
  deriving DecidableEq, Repr, Inhabited

/-- CFG.TIMEOUT is "an abstract token taken by CONSTRUCT and never compared with anything" (D7, R24): no operation
reads the number inside. -/
structure TimeoutToken where
  token : Nat
  deriving DecidableEq, Repr, Inhabited

/-- The serial channel and the direction line are "opaque handles to the environment" (R200). -/
structure Handle where
  token : Nat
  deriving DecidableEq, Repr, Inhabited

/-- The CRC-16 parameters CRC16_POLY, CRC16_INIT, CRC16_REFLECT, CRC16_XOROUT (R16). -/
structure CrcParams where
  poly    : Word
  init    : Word
  reflect : Bool
  xorout  : Word
  deriving DecidableEq, Repr

/-- CRC_RANGE (R17). -/
inductive CrcRange | afterMarker | withMarker
  deriving DecidableEq, Repr

/-- The parameters that select the V2 check: CRC parameters, CRC_RANGE (R17), CRC_OVER_STUFFED (R18), and
CHECK_STATUS_INSTR (R19). -/
structure Switches where
  crc              : CrcParams
  crcRange         : CrcRange
  crcOverStuffed   : Bool
  checkStatusInstr : Bool
  deriving DecidableEq, Repr

/-- BROADCAST_ID = 0xFE "in V1 and in V2" (R14). No operation treats it specially (R78, R149). -/
def Config.broadcastId : Byte := 0xFE

/-- The error kind the engine would report for a status frame of another id if CHECK_STATUS_ID were set. The spec has no
kind for it ("neither list holds ... an error kind for them", R19), so it is a free value: no statement can know it.
CHECK_STATUS_ID is false (D11), so no run of the default machine reads it. Log 23. -/
opaque Config.idMismatchKind : ErrorKind

end Sys2Proof
end

