-- ==== Sys2Proof/Machine/Bytes.lean ====
section
/-! DEFINITION. Byte order, slices, field bounds and wire lengths: the arithmetic on lengths and offsets that the frame
formats of `30_encoding.md` use (R44, R66 to R68, R77). -/

namespace Sys2Proof.Machine

/-- `lo8(v) = v[7:0]`. -/
def lo8 (v : Word) : Byte := v.extractLsb' 0 8

/-- `hi8(v) = v[15:8]`. -/
def hi8 (v : Word) : Byte := v.extractLsb' 8 8

/-- A 16-bit field, low byte first (R44). -/
def le16 (v : Word) : List Byte := [lo8 v, hi8 v]

/-- "Reassembly of a 16-bit field is lo + 256 * hi" (R119 d). -/
def fromLe16 (lo hi : Byte) : Word := hi ++ lo

/-- `s[i..j]`: the bytes at indices i to j-1, empty when j <= i. -/
def slice (b : List Byte) (i j : Nat) : List Byte := (b.drop i).take (j - i)

/-- `b[i]`, for an index the rule has shown to exist. -/
def byteAt (b : List Byte) (i : Nat) : Byte := b.getD i 0

/-- The most parameter bytes a request can carry: P <= 253 in V1, P <= 65532 in V2 (R77). -/
def maxRequestParams : Rev → Nat
  | .v1 => 253
  | .v2 => 65532

/-- The most parameter bytes a status frame can carry: N <= 253 in V1, N <= 65531 in V2 (R77). -/
def maxStatusParams : Rev → Nat
  | .v1 => 253
  | .v2 => 65531

/-- The largest address token: 0xFF in V1, 0xFFFF in V2 (R77). -/
def maxAddress : Rev → Nat
  | .v1 => 0xFF
  | .v2 => 0xFFFF

/-- The most data bytes a WRITE can carry: 252 in V1, 65530 in V2 (R77). -/
def maxWriteData : Rev → Nat
  | .v1 => 252
  | .v2 => 65530

/-- "P and N within the field bounds of rule R77 for CFG.REV" (R140). -/
def requestFits (rev : Rev) (p n : Nat) : Bool := p ≤ maxRequestParams rev && n ≤ maxStatusParams rev

/-- The operand test of READ (R161). -/
def readFits (rev : Rev) (address length : Nat) : Bool := address ≤ maxAddress rev && length ≤ maxStatusParams rev

/-- The operand test of WRITE (R162). -/
def writeFits (rev : Rev) (address dataLen : Nat) : Bool := address ≤ maxAddress rev && dataLen ≤ maxWriteData rev

/-- STATUS_WIRE_LEN (R68): N + 6 in V1, N + 11 in V2, whatever stuffing the frame has (R209). -/
def statusWireLen : Rev → Nat → Nat
  | .v1, n => n + 6
  | .v2, n => n + 11

end Sys2Proof.Machine
end

