-- ==== Sys2Proof/Machine/Parameters.lean ====
section
/-! DEFINITION. The values of the parameters of `00_scope.md` section 4 that the spec fixes or decides: INSTR_CODE (R69),
the CRC-16 parameters (R16), CRC_RANGE (R17), CRC_OVER_STUFFED (R18), CHECK_STATUS_INSTR and CHECK_STATUS_ID (R19), and
the two markers (R65). -/

namespace Sys2Proof.Machine

/-- INSTR_CODE (R69). Read and StatusReturn are the source's values; the other fourteen are PRESUMED: the spec gives them
"from general knowledge, not in source" (D1). Log 19. -/
def instrCode : WireInstr → Byte
  | .ping => 0x01
  | .read => 0x02
  | .write => 0x03
  | .registeredWrite => 0x04
  | .triggerAction => 0x05
  | .factoryReset => 0x06
  | .reboot => 0x08
  | .clear => 0x10
  | .controlTableBackup => 0x20
  | .statusReturn => 0x55
  | .syncRead => 0x82
  | .syncWrite => 0x83
  | .fastSyncRead => 0x8A
  | .bulkRead => 0x92
  | .bulkWrite => 0x93
  | .fastBulkRead => 0x9A

/-- The sixteen members of the enumeration, in the document's order (R69). -/
def allWireInstrs : List WireInstr :=
  [.ping, .read, .write, .registeredWrite, .triggerAction, .factoryReset, .reboot, .clear, .controlTableBackup,
   .statusReturn, .syncRead, .syncWrite, .fastSyncRead, .bulkRead, .bulkWrite, .fastBulkRead]

/-- The instruction whose code a byte is, if it is one of the sixteen. -/
def instrOfCode (b : Byte) : Option WireInstr := allWireInstrs.find? (fun i => instrCode i = b)

/-- V1_MARKER (R65). -/
def v1Marker : List Byte := [0xFF, 0xFF]

/-- V2_MARKER (R65). -/
def v2Marker : List Byte := [0xFF, 0xFF, 0xFD, 0x00]

/-- The marker that opens every frame of a revision (R65). -/
def marker : Rev → List Byte
  | .v1 => v1Marker
  | .v2 => v2Marker

/-- The instruction byte of the V2 status layout (R64). -/
def statusInstrByte : Byte := 0x55

/-- CRC16_POLY, CRC16_INIT, CRC16_REFLECT, CRC16_XOROUT (R16). PRESUMED: "from general knowledge, not in source" (D2).
Log 20. -/
def crcParams : CrcParams := { poly := 0x8005, init := 0x0000, reflect := false, xorout := 0x0000 }

/-- CRC_RANGE = AfterMarker (R17, log 21), CRC_OVER_STUFFED = true (D4, log 22), CHECK_STATUS_INSTR = false (D10, log 23). -/
def switches : Switches :=
  { crc := crcParams, crcRange := .afterMarker, crcOverStuffed := true, checkStatusInstr := false }

/-- CHECK_STATUS_ID = false (R19, D11). Log 23. -/
def checkStatusId : Bool := false

end Sys2Proof.Machine
end

