-- ==== Sys2Proof/Syntax.lean ====
section
/-! DEFINITION. The instructions: one constructor per row of spec/opcode_table.json. An operand that the spec calls a
natural number or a byte sequence of any length is one here; the bounds of R77 are `WellFormed` and the admission tests. -/

namespace Sys2Proof

/-- The operand of COMPUTE(rev, range) (R117): the revision together with the range in the form that revision checks, a
byte sequence in V1, the pair of logical and wire body in V2 (R116). -/
inductive CheckedRange
  | v1 (range : List Byte)
  | v2 (body wbody : List Byte)
  deriving DecidableEq, Repr

/-- The operands of VERIFY(rev, range, expected) (R116): the expected check value has the revision's width. -/
inductive VerifyOperands
  | v1 (range : List Byte) (expected : Byte)
  | v2 (body wbody : List Byte) (expected : Word)
  deriving DecidableEq, Repr

/-- The rows of spec/opcode_table.json.

* `v1Ping` ... `v2FastBulkRead`: the request instructions of R69 in formats V1REQ and V2REQ. `id` and `params` are the
  frame's fields; `n` is N, the parameter count the caller expects in the reply, which is not on the wire (R79, R101).
* `v1Status`, `v2Status`: a status frame as it was received (R63, R64), with the check value it carries, and the N it is
  decoded against. In V2 the instruction byte is a field because the decoder does not compare it (R74).
* the rest: the block-level operations of R81. -/
inductive Instr
  | v1Ping (id : Byte) (params : List Byte) (n : Nat)
  | v1Read (id : Byte) (params : List Byte) (n : Nat)
  | v1Write (id : Byte) (params : List Byte) (n : Nat)
  | v1RegisteredWrite (id : Byte) (params : List Byte) (n : Nat)
  | v1TriggerAction (id : Byte) (params : List Byte) (n : Nat)
  | v1FactoryReset (id : Byte) (params : List Byte) (n : Nat)
  | v1Reboot (id : Byte) (params : List Byte) (n : Nat)
  | v1Clear (id : Byte) (params : List Byte) (n : Nat)
  | v1ControlTableBackup (id : Byte) (params : List Byte) (n : Nat)
  | v1StatusReturn (id : Byte) (params : List Byte) (n : Nat)
  | v1SyncRead (id : Byte) (params : List Byte) (n : Nat)
  | v1SyncWrite (id : Byte) (params : List Byte) (n : Nat)
  | v1FastSyncRead (id : Byte) (params : List Byte) (n : Nat)
  | v1BulkRead (id : Byte) (params : List Byte) (n : Nat)
  | v1BulkWrite (id : Byte) (params : List Byte) (n : Nat)
  | v1FastBulkRead (id : Byte) (params : List Byte) (n : Nat)
  | v2Ping (id : Byte) (params : List Byte) (n : Nat)
  | v2Read (id : Byte) (params : List Byte) (n : Nat)
  | v2Write (id : Byte) (params : List Byte) (n : Nat)
  | v2RegisteredWrite (id : Byte) (params : List Byte) (n : Nat)
  | v2TriggerAction (id : Byte) (params : List Byte) (n : Nat)
  | v2FactoryReset (id : Byte) (params : List Byte) (n : Nat)
  | v2Reboot (id : Byte) (params : List Byte) (n : Nat)
  | v2Clear (id : Byte) (params : List Byte) (n : Nat)
  | v2ControlTableBackup (id : Byte) (params : List Byte) (n : Nat)
  | v2StatusReturn (id : Byte) (params : List Byte) (n : Nat)
  | v2SyncRead (id : Byte) (params : List Byte) (n : Nat)
  | v2SyncWrite (id : Byte) (params : List Byte) (n : Nat)
  | v2FastSyncRead (id : Byte) (params : List Byte) (n : Nat)
  | v2BulkRead (id : Byte) (params : List Byte) (n : Nat)
  | v2BulkWrite (id : Byte) (params : List Byte) (n : Nat)
  | v2FastBulkRead (id : Byte) (params : List Byte) (n : Nat)
  | v1Status (id err : Byte) (params : List Byte) (check : Byte) (n : Nat)
  | v2Status (id instr err : Byte) (params : List Byte) (check : Word) (n : Nat)
  | construct (channel dirline : Handle) (rev : Rev) (mult : BitVec 2) (echoLen : Nat) (timeout : TimeoutToken) (maxPacket : Nat)
  | teardown
  | ping (id : Byte)
  | read (id : Byte) (address length : Nat)
  | write (id : Byte) (address : Nat) (data : List Byte)
  | transact (id : Byte) (instr : WireInstr) (params : List Byte) (n : Nat)
  | encodeRequestV1 (id : Byte) (instr : WireInstr) (params : List Byte)
  | encodeRequestV2 (id : Byte) (instr : WireInstr) (params : List Byte)
  | encodeStatusV1 (id err : Byte) (params : List Byte)
  | encodeStatusV2 (id err : Byte) (params : List Byte)
  | decodeStatusV1 (n : Nat) (bytes : List Byte)
  | decodeStatusV2 (n : Nat) (bytes : List Byte)
  | stuff (body : List Byte)
  | unstuffTake (wire : List Byte) (k : Nat)
  | chk8 (range : List Byte)
  | crc16 (range : List Byte)
  | crc16OfBody (body wbody : List Byte)
  | verify (operands : VerifyOperands)
  | compute (range : CheckedRange)
  | writeFrame (bytes : List Byte)
  | readExact (n : Nat)
  deriving DecidableEq, Repr

/-- The request instruction `instr` of revision `rev` (R69: "The same table serves both revisions"). -/
def Instr.request (rev : Rev) (instr : WireInstr) (id : Byte) (params : List Byte) (n : Nat) : Instr :=
  match rev, instr with
  | .v1, .ping => .v1Ping id params n
  | .v1, .read => .v1Read id params n
  | .v1, .write => .v1Write id params n
  | .v1, .registeredWrite => .v1RegisteredWrite id params n
  | .v1, .triggerAction => .v1TriggerAction id params n
  | .v1, .factoryReset => .v1FactoryReset id params n
  | .v1, .reboot => .v1Reboot id params n
  | .v1, .clear => .v1Clear id params n
  | .v1, .controlTableBackup => .v1ControlTableBackup id params n
  | .v1, .statusReturn => .v1StatusReturn id params n
  | .v1, .syncRead => .v1SyncRead id params n
  | .v1, .syncWrite => .v1SyncWrite id params n
  | .v1, .fastSyncRead => .v1FastSyncRead id params n
  | .v1, .bulkRead => .v1BulkRead id params n
  | .v1, .bulkWrite => .v1BulkWrite id params n
  | .v1, .fastBulkRead => .v1FastBulkRead id params n
  | .v2, .ping => .v2Ping id params n
  | .v2, .read => .v2Read id params n
  | .v2, .write => .v2Write id params n
  | .v2, .registeredWrite => .v2RegisteredWrite id params n
  | .v2, .triggerAction => .v2TriggerAction id params n
  | .v2, .factoryReset => .v2FactoryReset id params n
  | .v2, .reboot => .v2Reboot id params n
  | .v2, .clear => .v2Clear id params n
  | .v2, .controlTableBackup => .v2ControlTableBackup id params n
  | .v2, .statusReturn => .v2StatusReturn id params n
  | .v2, .syncRead => .v2SyncRead id params n
  | .v2, .syncWrite => .v2SyncWrite id params n
  | .v2, .fastSyncRead => .v2FastSyncRead id params n
  | .v2, .bulkRead => .v2BulkRead id params n
  | .v2, .bulkWrite => .v2BulkWrite id params n
  | .v2, .fastBulkRead => .v2FastBulkRead id params n

/-- The two directions of a frame (R60: "request: PPE to bus; status: bus to PPE"). -/
inductive FrameKind | request | status
  deriving DecidableEq, Repr

/-- What an instruction is as a frame on the wire: the fields of its format, and N. -/
inductive WireFrame
  | request (rev : Rev) (instr : WireInstr) (id : Byte) (params : List Byte) (n : Nat)
  | v1Status (id err : Byte) (params : List Byte) (check : Byte) (n : Nat)
  | v2Status (id instr err : Byte) (params : List Byte) (check : Word) (n : Nat)
  deriving DecidableEq, Repr

/-- The frame an instruction is, if it is one. Block-level operations "have no bit encoding in the source" (D25). -/
def Instr.wireFrame : Instr → Option WireFrame
  | .v1Ping id params n => some (.request .v1 .ping id params n)
  | .v1Read id params n => some (.request .v1 .read id params n)
  | .v1Write id params n => some (.request .v1 .write id params n)
  | .v1RegisteredWrite id params n => some (.request .v1 .registeredWrite id params n)
  | .v1TriggerAction id params n => some (.request .v1 .triggerAction id params n)
  | .v1FactoryReset id params n => some (.request .v1 .factoryReset id params n)
  | .v1Reboot id params n => some (.request .v1 .reboot id params n)
  | .v1Clear id params n => some (.request .v1 .clear id params n)
  | .v1ControlTableBackup id params n => some (.request .v1 .controlTableBackup id params n)
  | .v1StatusReturn id params n => some (.request .v1 .statusReturn id params n)
  | .v1SyncRead id params n => some (.request .v1 .syncRead id params n)
  | .v1SyncWrite id params n => some (.request .v1 .syncWrite id params n)
  | .v1FastSyncRead id params n => some (.request .v1 .fastSyncRead id params n)
  | .v1BulkRead id params n => some (.request .v1 .bulkRead id params n)
  | .v1BulkWrite id params n => some (.request .v1 .bulkWrite id params n)
  | .v1FastBulkRead id params n => some (.request .v1 .fastBulkRead id params n)
  | .v2Ping id params n => some (.request .v2 .ping id params n)
  | .v2Read id params n => some (.request .v2 .read id params n)
  | .v2Write id params n => some (.request .v2 .write id params n)
  | .v2RegisteredWrite id params n => some (.request .v2 .registeredWrite id params n)
  | .v2TriggerAction id params n => some (.request .v2 .triggerAction id params n)
  | .v2FactoryReset id params n => some (.request .v2 .factoryReset id params n)
  | .v2Reboot id params n => some (.request .v2 .reboot id params n)
  | .v2Clear id params n => some (.request .v2 .clear id params n)
  | .v2ControlTableBackup id params n => some (.request .v2 .controlTableBackup id params n)
  | .v2StatusReturn id params n => some (.request .v2 .statusReturn id params n)
  | .v2SyncRead id params n => some (.request .v2 .syncRead id params n)
  | .v2SyncWrite id params n => some (.request .v2 .syncWrite id params n)
  | .v2FastSyncRead id params n => some (.request .v2 .fastSyncRead id params n)
  | .v2BulkRead id params n => some (.request .v2 .bulkRead id params n)
  | .v2BulkWrite id params n => some (.request .v2 .bulkWrite id params n)
  | .v2FastBulkRead id params n => some (.request .v2 .fastBulkRead id params n)
  | .v1Status id err params check n => some (.v1Status id err params check n)
  | .v2Status id instr err params check n => some (.v2Status id instr err params check n)
  | .construct _ _ _ _ _ _ _ => none
  | .teardown => none
  | .ping _ => none
  | .read _ _ _ => none
  | .write _ _ _ => none
  | .transact _ _ _ _ => none
  | .encodeRequestV1 _ _ _ => none
  | .encodeRequestV2 _ _ _ => none
  | .encodeStatusV1 _ _ _ => none
  | .encodeStatusV2 _ _ _ => none
  | .decodeStatusV1 _ _ => none
  | .decodeStatusV2 _ _ => none
  | .stuff _ => none
  | .unstuffTake _ _ => none
  | .chk8 _ => none
  | .crc16 _ => none
  | .crc16OfBody _ _ => none
  | .verify _ => none
  | .compute _ => none
  | .writeFrame _ => none
  | .readExact _ => none

/-- The revision of a frame. -/
def WireFrame.rev : WireFrame → Rev
  | .request rev _ _ _ _ => rev
  | .v1Status _ _ _ _ _ => .v1
  | .v2Status _ _ _ _ _ _ => .v2

/-- The direction of a frame. -/
def WireFrame.kind : WireFrame → FrameKind
  | .request _ _ _ _ _ => .request
  | .v1Status _ _ _ _ _ => .status
  | .v2Status _ _ _ _ _ _ => .status

/-- N, the operand that is not on the wire (R79). -/
def WireFrame.expected : WireFrame → Nat
  | .request _ _ _ _ n => n
  | .v1Status _ _ _ _ n => n
  | .v2Status _ _ _ _ _ n => n

end Sys2Proof
end

