-- ==== Sys2Proof/Machine/Integrity.lean ====
section
/-! DEFINITION. The Integrity Check unit (`41_integrity.md`): CHK8, CRC16 in its bit and table forms, the range of the V2
check, COMPUTE and VERIFY. Pure functions (R118). A function that reads a parameter takes it as an argument, so that
a law for every setting (R102) can be stated; the machine uses `switches`. -/

namespace Sys2Proof.Machine

/-- CHK8 (R110): "bitwise NOT of the truncated sum". The accumulator is 8 bits, so the sum wraps by itself. -/
def chk8 (b : List Byte) : Byte := 0xFF - b.foldl (· + ·) 0

/-- One of the eight shifts of R112. -/
def crcShift (poly crc : Word) : Word := if crc.msb then (crc <<< 1) ^^^ poly else crc <<< 1

/-- One byte of R112: it enters at the high end, then eight shifts. -/
def crcByte (poly crc : Word) (x : Byte) : Word := Nat.repeat (crcShift poly) 8 (crc ^^^ (x.setWidth 16 <<< 8))

/-- CRC16 (R112) for any parameters. CRC16_REFLECT (R16) reverses each byte's bits on entry and the register at the end
(PRESUMED meaning of the parameter; it is false in every setting the spec uses, log 20). -/
def crc16With (p : CrcParams) (b : List Byte) : Word :=
  let c := b.foldl (fun crc x => crcByte p.poly crc (if p.reflect then x.reverse else x)) p.init
  (if p.reflect then c.reverse else c) ^^^ p.xorout

/-- CRC16 (R112) with the spec's parameters. -/
def crc16 (b : List Byte) : Word := crc16With crcParams b

/-- CRC_TABLE[i] = CRC16([i]) (R113): "a model should generate it the same way". -/
def crcTable : List Word := (List.range 256).map fun i => crc16 [BitVec.ofNat 8 i]

/-- CRC16 in the table form of R113. -/
def crc16Table (b : List Byte) : Word :=
  b.foldl (fun crc x => (crc <<< 8) ^^^ crcTable.getD (hi8 crc ^^^ x).toNat 0) 0

/-- CRC16_OF_BODY (R114). -/
def crc16OfBody (w : Switches) (body wbody : List Byte) : Word :=
  let r := if w.crcOverStuffed then wbody else body
  crc16With w.crc (match w.crcRange with | .afterMarker => r | .withMarker => v2Marker ++ r)

/-- A check value: a byte in V1, a word in V2. -/
inductive CheckValue
  | v1 (value : Byte)
  | v2 (value : Word)
  deriving DecidableEq, Repr

/-- COMPUTE (R117): "The revision, not the data, selects the algorithm". -/
def compute (w : Switches) : CheckedRange → CheckValue
  | .v1 range => .v1 (chk8 range)
  | .v2 body wbody => .v2 (crc16OfBody w body wbody)

/-- VERIFY (R116): recompute and compare. -/
def verify (w : Switches) : VerifyOperands → Bool
  | .v1 range expected => chk8 range = expected
  | .v2 body wbody expected => crc16OfBody w body wbody = expected

end Sys2Proof.Machine
end

