-- ==== Sys2Proof/Machine/Codec.lean ====
section
/-! DEFINITION. The Frame Codec unit (`40_frame_codec.md`): byte stuffing, the layouts of the four frame formats, and the
status decoder. Pure functions: "no I/O". -/

namespace Sys2Proof.Machine

/-- The pattern of R90, given the two bytes before and the byte itself. -/
def isPattern (p2 p1 b : Byte) : Bool := p2 = 0xFF && p1 = 0xFF && b = 0xFD

/-- STUFF (R90) after the two logical bytes `p2`, `p1`. The byte 00 stands for "no byte yet": the window "starts empty" (R92)
and 00 never takes part in a match. -/
def stuffFrom (p2 p1 : Byte) : List Byte → List Byte
  | [] => []
  | b :: rest => if isPattern p2 p1 b then b :: 0xFD :: stuffFrom p1 b rest else b :: stuffFrom p1 b rest

/-- STUFF (R90). -/
def stuff (b : List Byte) : List Byte := stuffFrom 0 0 b

/-- UNSTUFF (R91) after the two logical bytes `p2`, `p1`. `due` says that the last logical byte completed the pattern, so
that a following FD is the inserted byte and is dropped; any other byte is kept (D14). -/
def unstuffFrom (due : Bool) (p2 p1 : Byte) : List Byte → List Byte
  | [] => []
  | b :: rest =>
    if due && b = 0xFD then unstuffFrom false p2 p1 rest
    else b :: unstuffFrom (isPattern p2 p1 b) p1 b rest

/-- UNSTUFF (R91). -/
def unstuff (w : List Byte) : List Byte := unstuffFrom false 0 0 w

/-- UNSTUFF_TAKE (R91) from the middle of the sequence: the `k` logical bytes still wanted and the wire bytes they use;
`none` is Short. The inserted byte is dropped also after the k-th logical byte. -/
def unstuffTakeFrom (due : Bool) (p2 p1 : Byte) : List Byte → Nat → Option (List Byte × Nat)
  | w, 0 => some ([], if due && w.head? = some 0xFD then 1 else 0)
  | [], _ + 1 => none
  | b :: rest, k + 1 =>
    if due && b = 0xFD then
      (unstuffTakeFrom false p2 p1 rest (k + 1)).map fun r => (r.1, r.2 + 1)
    else
      (unstuffTakeFrom (isPattern p2 p1 b) p1 b rest k).map fun r => (b :: r.1, r.2 + 1)

/-- UNSTUFF_TAKE(w, k) (R91): the logical bytes and the number of wire bytes consumed, or `none` for Short. -/
def unstuffTake (w : List Byte) (k : Nat) : Option (List Byte × Nat) := unstuffTakeFrom false 0 0 w k

/-- A V1 frame around a body (R61, R63): marker, body, CHK8 of the body. No stuffing (R93). -/
def v1Frame (body : List Byte) : List Byte := v1Marker ++ body ++ [chk8 body]

/-- A V2 frame around a logical body (R62, R64): marker, stuffed body, CRC low byte first. -/
def v2Frame (w : Switches) (body : List Byte) : List Byte :=
  v2Marker ++ stuff body ++ le16 (crc16OfBody w body (stuff body))

/-- The logical body of a request: id, length, instruction, params, with length P + 2 in V1 (R66) and P + 3 in V2 (R67). -/
def requestBody (rev : Rev) (id : Byte) (instr : WireInstr) (params : List Byte) : List Byte :=
  match rev with
  | .v1 => [id, BitVec.ofNat 8 (params.length + 2), instrCode instr] ++ params
  | .v2 => id :: le16 (BitVec.ofNat 16 (params.length + 3)) ++ [instrCode instr] ++ params

/-- The request frame of R94 and R95, for parameters that fit (R77). -/
def requestFrameWith (w : Switches) (rev : Rev) (id : Byte) (instr : WireInstr) (params : List Byte) : List Byte :=
  match rev with
  | .v1 => v1Frame (requestBody .v1 id instr params)
  | .v2 => v2Frame w (requestBody .v2 id instr params)

/-- The request frame with the spec's parameters. -/
def requestFrame (rev : Rev) (id : Byte) (instr : WireInstr) (params : List Byte) : List Byte :=
  requestFrameWith switches rev id instr params

/-- The logical body of a status frame: id, length, (0x55 in V2,) error, params, with length N + 2 in V1 (R66) and N + 4
in V2 (R67). -/
def statusBody (rev : Rev) (id err : Byte) (params : List Byte) : List Byte :=
  match rev with
  | .v1 => [id, BitVec.ofNat 8 (params.length + 2), err] ++ params
  | .v2 => id :: le16 (BitVec.ofNat 16 (params.length + 4)) ++ [statusInstrByte, err] ++ params

/-- ENCODE_STATUS (R96, R97), for parameters that fit (R77). -/
def statusFrameWith (w : Switches) (rev : Rev) (id err : Byte) (params : List Byte) : List Byte :=
  match rev with
  | .v1 => v1Frame (statusBody .v1 id err params)
  | .v2 => v2Frame w (statusBody .v2 id err params)

/-- ENCODE_STATUS with the spec's parameters. -/
def statusFrame (rev : Rev) (id err : Byte) (params : List Byte) : List Byte := statusFrameWith switches rev id err params

/-- The wire bytes of a V1 status frame as received, with the check byte it carries (R63). -/
def v1StatusBytes (id err : Byte) (params : List Byte) (check : Byte) : List Byte :=
  v1Marker ++ statusBody .v1 id err params ++ [check]

/-- The wire bytes of a V2 status frame as received, with the instruction byte and the CRC it carries (R64). -/
def v2StatusBytes (id instr err : Byte) (params : List Byte) (check : Word) : List Byte :=
  v2Marker ++ stuff (id :: le16 (BitVec.ofNat 16 (params.length + 4)) ++ [instr, err] ++ params) ++ le16 check

/-- `StatusFrame` of `00_scope.md` section 5: `instr` is absent in V1. -/
structure StatusFrame where
  id     : Byte
  instr  : Option Byte
  err    : Byte
  params : List Byte
  check  : CheckValue
  deriving DecidableEq, Repr

/-- What DECODE_STATUS answers: a frame or one of the error kinds (R98, R99). -/
inductive Decoded
  | frame (f : StatusFrame)
  | error (k : ErrorKind)
  deriving DecidableEq, Repr

/-- DECODE_STATUS, revision V1 (R98), the checks in the rule's order. -/
def decodeStatusV1 (n : Nat) (b : List Byte) : Decoded :=
  if b.length < 4 then .error .frameTooShort
  else if slice b 0 2 ≠ v1Marker then .error .badMarker
  else if b.length < 4 + (byteAt b 3).toNat then .error .frameTooShort
  else if (byteAt b 3).toNat ≠ n + 2 then .error .lengthMismatch
  else if verify switches (.v1 (slice b 2 (5 + n)) (byteAt b (5 + n))) then
    .frame { id := byteAt b 2, instr := none, err := byteAt b 4, params := slice b 5 (5 + n),
             check := .v1 (byteAt b (5 + n)) }
  else .error .integrityMismatch

/-- DECODE_STATUS, revision V2 (R99), the checks in the rule's order; `l` is the declared length. -/
def decodeStatusV2With (w : Switches) (n : Nat) (b : List Byte) : Decoded :=
  let l := (fromLe16 (byteAt b 5) (byteAt b 6)).toNat
  if b.length < 7 then .error .frameTooShort
  else if slice b 0 4 ≠ v2Marker then .error .badMarker
  else
    match unstuffTake (b.drop 4) (l + 1) with
    | none => .error .frameTooShort
    | some (logical, used) =>
      let crc := fromLe16 (byteAt b (4 + used)) (byteAt b (4 + used + 1))
      if b.length < 4 + used + 2 then .error .frameTooShort
      else if l ≠ n + 4 then .error .lengthMismatch
      else if w.checkStatusInstr && byteAt logical 3 ≠ statusInstrByte then .error .badMarker
      else if verify w (.v2 logical (slice b 4 (4 + used)) crc) then
        .frame { id := byteAt b 4, instr := some (byteAt logical 3), err := byteAt logical 4,
                 params := slice logical 5 (5 + n), check := .v2 crc }
      else .error .integrityMismatch

/-- DECODE_STATUS, revision V2, with the spec's parameters. -/
def decodeStatusV2 (n : Nat) (b : List Byte) : Decoded := decodeStatusV2With switches n b

/-- DECODE_STATUS(REV, N, B). -/
def decodeStatus : Rev → Nat → List Byte → Decoded
  | .v1, n, b => decodeStatusV1 n b
  | .v2, n, b => decodeStatusV2 n b

end Sys2Proof.Machine
end

