-- ==== Sys2Proof/WellFormed.lean ====
section
/-! DEFINITION. When an instruction's operands fit their fields (R77). Admission tests at run time refuse what is ill-formed
here and cannot be sent (R183); the encoder is stated for well-formed instructions. -/

namespace Sys2Proof

/-- The operands fit the fields R77 names. For an operation of no fixed revision (TRANSACT, READ, WRITE) the bound is the
wider one, V2's; the connection's own bound is tested when it runs. A check value of a status frame and the bytes given to
a decoder or a pure function are unrestricted. -/
def Instr.wellFormed : Instr → Bool
  | .v1Ping _ params n => Machine.requestFits .v1 params.length n
  | .v1Read _ params n => Machine.requestFits .v1 params.length n
  | .v1Write _ params n => Machine.requestFits .v1 params.length n
  | .v1RegisteredWrite _ params n => Machine.requestFits .v1 params.length n
  | .v1TriggerAction _ params n => Machine.requestFits .v1 params.length n
  | .v1FactoryReset _ params n => Machine.requestFits .v1 params.length n
  | .v1Reboot _ params n => Machine.requestFits .v1 params.length n
  | .v1Clear _ params n => Machine.requestFits .v1 params.length n
  | .v1ControlTableBackup _ params n => Machine.requestFits .v1 params.length n
  | .v1StatusReturn _ params n => Machine.requestFits .v1 params.length n
  | .v1SyncRead _ params n => Machine.requestFits .v1 params.length n
  | .v1SyncWrite _ params n => Machine.requestFits .v1 params.length n
  | .v1FastSyncRead _ params n => Machine.requestFits .v1 params.length n
  | .v1BulkRead _ params n => Machine.requestFits .v1 params.length n
  | .v1BulkWrite _ params n => Machine.requestFits .v1 params.length n
  | .v1FastBulkRead _ params n => Machine.requestFits .v1 params.length n
  | .v2Ping _ params n => Machine.requestFits .v2 params.length n
  | .v2Read _ params n => Machine.requestFits .v2 params.length n
  | .v2Write _ params n => Machine.requestFits .v2 params.length n
  | .v2RegisteredWrite _ params n => Machine.requestFits .v2 params.length n
  | .v2TriggerAction _ params n => Machine.requestFits .v2 params.length n
  | .v2FactoryReset _ params n => Machine.requestFits .v2 params.length n
  | .v2Reboot _ params n => Machine.requestFits .v2 params.length n
  | .v2Clear _ params n => Machine.requestFits .v2 params.length n
  | .v2ControlTableBackup _ params n => Machine.requestFits .v2 params.length n
  | .v2StatusReturn _ params n => Machine.requestFits .v2 params.length n
  | .v2SyncRead _ params n => Machine.requestFits .v2 params.length n
  | .v2SyncWrite _ params n => Machine.requestFits .v2 params.length n
  | .v2FastSyncRead _ params n => Machine.requestFits .v2 params.length n
  | .v2BulkRead _ params n => Machine.requestFits .v2 params.length n
  | .v2BulkWrite _ params n => Machine.requestFits .v2 params.length n
  | .v2FastBulkRead _ params n => Machine.requestFits .v2 params.length n
  | .v1Status _ _ params _ _ => params.length ≤ Machine.maxStatusParams .v1
  | .v2Status _ _ _ params _ _ => params.length ≤ Machine.maxStatusParams .v2
  | .construct _ _ _ mult _ _ _ => mult ≠ 3
  | .teardown => true
  | .ping _ => true
  | .read _ address length => Machine.readFits .v2 address length
  | .write _ address data => Machine.writeFits .v2 address data.length
  | .transact _ _ params n => Machine.requestFits .v2 params.length n
  | .encodeRequestV1 _ _ params => params.length ≤ Machine.maxRequestParams .v1
  | .encodeRequestV2 _ _ params => params.length ≤ Machine.maxRequestParams .v2
  | .encodeStatusV1 _ _ params => params.length ≤ Machine.maxStatusParams .v1
  | .encodeStatusV2 _ _ params => params.length ≤ Machine.maxStatusParams .v2
  | .decodeStatusV1 _ _ => true
  | .decodeStatusV2 _ _ => true
  | .stuff _ => true
  | .unstuffTake _ _ => true
  | .chk8 _ => true
  | .crc16 _ => true
  | .crc16OfBody _ _ => true
  | .verify _ => true
  | .compute _ => true
  | .writeFrame bytes => bytes ≠ []
  | .readExact _ => true

/-- `i.wellFormed` as a proposition. -/
abbrev WellFormed (i : Instr) : Prop := i.wellFormed = true

end Sys2Proof
end

