-- ==== Sys2Proof/Decode.lean ====
section
/-! DEFINITION. From the bytes of a frame to an instruction and back. The formats are those of `30_encoding.md` R61 to R64.
The PPE itself encodes requests and decodes status frames (R60); reading a request frame back is the model's own inverse
of the encoder, strict where the layout leaves one value (log 17). Nothing tells a frame's revision or direction from the
wire (R60), so both are operands, and so is N (R79). -/

namespace Sys2Proof

open Sys2Proof.Machine

/-- Why bytes are not a frame of the asked format. -/
inductive DecodeReject
  | tooShort
  | badMarker
  | badLength
  | unknownInstr (code : Byte)
  | badStuffing
  | badCheck
  | trailingBytes
  deriving DecidableEq, Repr

/-- A frame of format V1REQ (R61) at the head of the bytes, and the bytes after it. The declared length `l` counts
instruction, params and checksum (R66). -/
def decodeV1Request (n : Nat) (b : List Byte) : Except DecodeReject (Instr × List Byte) :=
  let l := (byteAt b 3).toNat
  if b.length < 5 then .error .tooShort
  else if slice b 0 2 ≠ v1Marker then .error .badMarker
  else if l < 2 then .error .badLength
  else if b.length < 4 + l then .error .tooShort
  else
    match instrOfCode (byteAt b 4) with
    | none => .error (.unknownInstr (byteAt b 4))
    | some instr =>
      if chk8 (slice b 2 (3 + l)) ≠ byteAt b (3 + l) then .error .badCheck
      else .ok (Instr.request .v1 instr (byteAt b 2) (slice b 5 (3 + l)) n, b.drop (4 + l))

/-- A frame of format V2REQ (R62) at the head of the bytes, and the bytes after it. The declared length `l` counts the
logical bytes of instruction, params and CRC (R67), so the body has `l + 1` logical bytes. -/
def decodeV2Request (n : Nat) (b : List Byte) : Except DecodeReject (Instr × List Byte) :=
  let l := (fromLe16 (byteAt b 5) (byteAt b 6)).toNat
  if b.length < 7 then .error .tooShort
  else if slice b 0 4 ≠ v2Marker then .error .badMarker
  else if l < 3 then .error .badLength
  else
    match unstuffTake (b.drop 4) (l + 1) with
    | none => .error .tooShort
    | some (logical, used) =>
      if b.length < 4 + used + 2 then .error .tooShort
      else if stuff logical ≠ slice b 4 (4 + used) then .error .badStuffing
      else
        match instrOfCode (byteAt logical 3) with
        | none => .error (.unknownInstr (byteAt logical 3))
        | some instr =>
          if crc16OfBody switches logical (stuff logical) ≠ fromLe16 (byteAt b (4 + used)) (byteAt b (5 + used)) then
            .error .badCheck
          else .ok (Instr.request .v2 instr (byteAt logical 0) (logical.drop 4) n, b.drop (6 + used))

/-- A frame of format V1STS (R63) at the head of the bytes, with whatever checksum it carries. -/
def decodeV1Status (n : Nat) (b : List Byte) : Except DecodeReject (Instr × List Byte) :=
  let l := (byteAt b 3).toNat
  if b.length < 5 then .error .tooShort
  else if slice b 0 2 ≠ v1Marker then .error .badMarker
  else if l < 2 then .error .badLength
  else if b.length < 4 + l then .error .tooShort
  else .ok (.v1Status (byteAt b 2) (byteAt b 4) (slice b 5 (3 + l)) (byteAt b (3 + l)) n, b.drop (4 + l))

/-- A frame of format V2STS (R64) at the head of the bytes, with whatever instruction byte and CRC it carries. -/
def decodeV2Status (n : Nat) (b : List Byte) : Except DecodeReject (Instr × List Byte) :=
  let l := (fromLe16 (byteAt b 5) (byteAt b 6)).toNat
  if b.length < 7 then .error .tooShort
  else if slice b 0 4 ≠ v2Marker then .error .badMarker
  else if l < 4 then .error .badLength
  else
    match unstuffTake (b.drop 4) (l + 1) with
    | none => .error .tooShort
    | some (logical, used) =>
      if b.length < 4 + used + 2 then .error .tooShort
      else if stuff logical ≠ slice b 4 (4 + used) then .error .badStuffing
      else
        .ok (.v2Status (byteAt logical 0) (byteAt logical 3) (byteAt logical 4) (logical.drop 5)
               (fromLe16 (byteAt b (4 + used)) (byteAt b (5 + used))) n, b.drop (6 + used))

/-- The decoder: the frame of a revision and direction at the head of any bytes, read with N = `n`, and the rest. -/
def decode (rev : Rev) (kind : FrameKind) (n : Nat) (b : List Byte) : Except DecodeReject (Instr × List Byte) :=
  match rev, kind with
  | .v1, .request => decodeV1Request n b
  | .v2, .request => decodeV2Request n b
  | .v1, .status => decodeV1Status n b
  | .v2, .status => decodeV2Status n b

/-- One frame and nothing after it: "A frame has no padding, no trailer after the check value" (R60). -/
def decodeFrame (rev : Rev) (kind : FrameKind) (n : Nat) (b : List Byte) : Except DecodeReject Instr :=
  match decode rev kind n b with
  | .error e => .error e
  | .ok (i, []) => .ok i
  | .ok (_, _ :: _) => .error .trailingBytes

/-- The bytes of a frame, from the layouts of R61 to R64. -/
def WireFrame.bytes : WireFrame → List Byte
  | .request rev instr id params _ => requestFrame rev id instr params
  | .v1Status id err params check _ => v1StatusBytes id err params check
  | .v2Status id instr err params check _ => v2StatusBytes id instr err params check

/-- The encoder. Only a frame has a bit encoding (R81, D25). -/
def encode (i : Instr) : Option (List Byte) := i.wireFrame.map WireFrame.bytes

/-! ### Words of spec/opcode_table.json

A row of the table gives the first 5 bytes of a V1 frame or the first 8 of a V2 frame: marker, id, length, instruction. The
parameter bytes have no bits in the table, so they are zeros; the length and the check value are no operands but are fixed
by the layout (R61 to R64). Log 18. -/

/-- The bytes of a table word, the first byte in the lowest bits. -/
def tableBytes (nbits w : Nat) : List Byte := (List.range (nbits / 8)).map fun k => BitVec.ofNat 8 (w >>> (8 * k))

/-- A V1 row has 5 bytes, a V2 row 8. -/
def tableRev (nbits : Nat) : Rev := if nbits ≤ 40 then .v1 else .v2

/-- The direction a table word is read in: a request if its instruction byte is one of the sixteen, else a status frame. -/
def tableKind (rev : Rev) (h : List Byte) : FrameKind :=
  if (instrOfCode (byteAt h (match rev with | .v1 => 4 | .v2 => 7))).isSome then .request else .status

/-- The frame a table word opens: its id, its instruction (or error) byte, as many zero parameter bytes as its length field
declares (none where that field is the zero filler), and the length and check value the layout gives. A word that does not
open with the revision's marker is left as it is. -/
def tableFrame (nbits w : Nat) : List Byte :=
  let h := tableBytes nbits w
  match tableRev nbits with
  | .v1 =>
    if slice h 0 2 ≠ v1Marker then h
    else
      let params := List.replicate ((byteAt h 3).toNat - 2) (0 : Byte)
      match instrOfCode (byteAt h 4) with
      | some instr => requestFrame .v1 (byteAt h 2) instr params
      | none => statusFrame .v1 (byteAt h 2) (byteAt h 4) params
  | .v2 =>
    let l := (fromLe16 (byteAt h 5) (byteAt h 6)).toNat
    if slice h 0 4 ≠ v2Marker then h
    else
      match instrOfCode (byteAt h 7) with
      | some instr => requestFrame .v2 (byteAt h 4) instr (List.replicate (l - 3) 0)
      | none => v2StatusBytes (byteAt h 4) (byteAt h 7) 0 (List.replicate (l - 4) 0) 0

/-- The instruction the decoder reads from a word of the opcode table, with N = 0. -/
def decodeTableWord (nbits w : Nat) : Option Instr :=
  match decodeFrame (tableRev nbits) (tableKind (tableRev nbits) (tableBytes nbits w)) 0 (tableFrame nbits w) with
  | .ok i => some i
  | .error _ => none

end Sys2Proof
end

