-- ==== Sys2Proof/Machine/State.lean ====
section
/-! DEFINITION. The state of one PPE connection (R20: "There is nothing else"), the state owned by the environment that R33
and R34 name, and three fields of the model's own: the operations the host will issue, the environment's coming answers,
and the value last returned to the host. -/

namespace Sys2Proof.Machine

/-- DIR (R26). -/
inductive Direction | tx | rx
  deriving DecidableEq, Repr

/-- FSM (R27). -/
inductive Fsm | idle | awaitFirst | awaitReply | done
  deriving DecidableEq, Repr

/-- The outcome of a transaction (`00_scope.md` section 5, R148). -/
inductive TxnOutcome
  | okSome (f : StatusFrame)
  | okNone
  | err (k : ErrorKind)
  deriving DecidableEq, Repr

/-- The events of TXTRACE (R33). -/
inductive Event
  | dir (d : Direction)
  | tx (b : Byte)
  | drained
  | rxTaken (bytes : List Byte)
  | rxDiscarded (bytes : List Byte)
  | rxTimeout (bytes : List Byte)
  | rxFail
  | txFail
  deriving DecidableEq, Repr

/-- The configuration registers (R21 to R25), written only by CONSTRUCT. -/
structure Cfg where
  rev       : Rev
  mult      : BitVec 2
  echoLen   : Nat
  timeout   : TimeoutToken
  maxPacket : Nat
  deriving DecidableEq, Repr

/-- The operand latches REQ.ID, REQ.INSTR, REQ.PARAMS, REQ.N (R28). -/
structure Request where
  id     : Byte
  instr  : WireInstr
  params : List Byte
  n      : Nat
  deriving DecidableEq, Repr

/-- The environment's report of a channel fault while sending (R126, R131): how many bytes went out, and what RXQ holds
afterwards, "an arbitrary byte sequence" (U5). -/
structure TxFault where
  sent     : Nat
  rxqAfter : List Byte
  deriving DecidableEq, Repr

/-- The environment's answer to one TxPut (R134): the bytes that arrive while the frame is sent (an echo, R34), and a
channel fault if it reports one. -/
structure TxAnswer where
  arrivals : List Byte
  fault    : Option TxFault
  deriving DecidableEq, Repr

/-- The environment's answer to one RxTake (R134): the bytes that arrive before the wait ends, and, if the channel reports a
fault, what RXQ holds afterwards (U5). Whether the receive then is `Bytes` or `Timeout` follows from what is pending: "if
at least n bytes are in RXQ when the receive starts, the answer is `Bytes` or `Fail`" (R130). -/
structure RxAnswer where
  arrivals : List Byte
  fault    : Option (List Byte)
  deriving DecidableEq, Repr

/-- The environment (R134): its answers to the coming transmits and receives, oldest first, what the serial channel holds at
the coming constructions (U1), and the bytes that arrive before each of the coming steps in Idle, "between transactions"
(R34). Where a list has run out the environment is the scripted transport of R134: nothing new arrives, no fault is reported,
the channel is as it was. Log 4. -/
structure Environment where
  tx      : List TxAnswer
  rx      : List RxAnswer
  bind    : List (List Byte)
  between : List (List Byte)
  deriving DecidableEq, Repr

/-- An operation as the host issues it: the operation itself (D25), or a frame given by its wire bytes with its N (R79),
read under CFG.REV. Log 9. -/
inductive Command
  | call (i : Instr)
  | frame (kind : FrameKind) (n : Nat) (bytes : List Byte)
  deriving DecidableEq, Repr

/-- What an operation returned to its caller. Log 8. -/
inductive Returned
  | nothing
  | unit
  | outcome (o : TxnOutcome)
  | raised (k : ErrorKind)
  | decoded (d : Decoded)
  | bytes (b : List Byte)
  | taken (r : Option (List Byte × Nat))
  | check (v : CheckValue)
  | bool (b : Bool)
  deriving DecidableEq, Repr

/-- The machine. Up to `rxq` the spec's own state (R20, R33, R34); then the model's own fields. -/
structure State where
  /-- BOUND (R39). -/
  bound   : Bool
  /-- CFG.REV, CFG.MULT, CFG.ECHO_LEN, CFG.TIMEOUT, CFG.MAX_PACKET (R21 to R25). -/
  cfg     : Cfg
  /-- DIR (R26). -/
  dir     : Direction
  /-- FSM (R27). -/
  fsm     : Fsm
  /-- REQ.* (R28). -/
  req     : Request
  /-- TXBUF (R29). -/
  txbuf   : List Byte
  /-- RXBUF (R29). -/
  rxbuf   : List Byte
  /-- OUT (R30): written in the transition to Done, consumed by the caller on return; `none` when it holds no outcome. -/
  out     : Option TxnOutcome
  /-- TXTRACE (R33), oldest event first. -/
  trace   : List Event
  /-- RXQ (R34), oldest byte first. The channel's own capacity is not in the source (R189, N9): the list has no bound. Log 37. -/
  rxq     : List Byte
  /-- The operations the host will issue, in order (R204). -/
  pending : List Command
  /-- The environment's coming answers (R134). -/
  env     : Environment
  /-- The value the last operation returned to the host. -/
  ret     : Returned
  deriving DecidableEq, Repr

/-- Why the machine would stop with a fault: never. Every receive ends (R130), "the PPE has no stuck state" (U20), and every
error is an outcome returned to the caller (R175). Log 33. -/
inductive Fault
  deriving DecidableEq, Repr

/-- Why an operation is not admitted: "changes no state, sends no byte and returns no outcome" (R183), "a refused operation
has no step in the model" (D24). All are safe: the model stops where the spec gives no behaviour. Log 11. -/
inductive Refusal
  /-- Raised by `exec` for an instruction without a meaning; none is left. Safe. -/
  | notModelled (mnemonic : String)
  /-- NotBound (R39, R140): raised by every operation but CONSTRUCT while BOUND is false. Safe. -/
  | notBound
  /-- Busy (R140, R153, R200): raised by every operation but CONSTRUCT while FSM is not Idle, and by CONSTRUCT while BOUND
  is true. Safe. -/
  | busy
  /-- LengthFieldOverflow (R94, R95, R140, R77): raised by TRANSACT, the request instructions and the encoders when a
  parameter count does not fit the length field. Safe. -/
  | lengthFieldOverflow
  /-- OperandOutOfRange (R161, R162): raised by READ and WRITE. Safe. -/
  | operandOutOfRange
  /-- PacketTooLong (R94, R95, R12): raised when an encoded request exceeds MAX_PACKET. Safe. -/
  | packetTooLong
  /-- BadConfiguration (R200, R76): raised by CONSTRUCT for multiplicity 3. Safe. -/
  | badConfiguration
  /-- The model's name for R9 and R117: raised by an instruction of one revision on a connection of the other, by the
  request instructions, the encoders and decoders, and the operations that compute a check. "it cannot be changed
  per-call" (R9); "A V1 connection never computes a CRC and a V2 connection never computes a checksum" (R117). Safe.
  Log 14, log 15. -/
  | wrongRevision
  /-- The model's name for R125: raised by `step` when the host of a bound PPE issues WRITE_FRAME or READ_EXACT, which are "not offered to
  the caller, only to TRANSACT". Safe. Log 13. -/
  | notOffered
  /-- The model's name for R74 and U2 ("refuse: not expressible"): raised by `step` of a bound PPE when bytes the host
  gave as a request are no request frame. Received bytes never raise it: the status decoder answers for any bytes (R98, R99). Safe. Log 17. -/
  | undecodable (why : DecodeReject)
  deriving DecidableEq, Repr

/-- The operand latches when dead (R28): no operation reads them, so the values are a DESIGN CHOICE. Log 2. -/
def Request.dead : Request := { id := 0, instr := .ping, params := [], n := 0 }

/-- An environment with no answer planned. -/
def Environment.unplanned : Environment := { tx := [], rx := [], bind := [], between := [] }

/-- The machine before any CONSTRUCT: BOUND is false (R39), DIR is RX (R26), FSM is Idle (R27), TXTRACE is empty (R33). The
configuration registers "have no value" before construction (R21); theirs are a DESIGN CHOICE (log 1), as are the dead
latches' (log 2) and RXQ's (log 3). -/
def State.reset : State :=
  { bound := false
    cfg := { rev := .v1, mult := 0, echoLen := 0, timeout := { token := 0 }, maxPacket := 0 }
    dir := .rx
    fsm := .idle
    req := Request.dead
    txbuf := []
    rxbuf := []
    out := none
    trace := []
    rxq := []
    pending := []
    env := Environment.unplanned
    ret := .nothing }

end Sys2Proof.Machine
end

