-- ==== Sys2Proof/Machine/Flags.lean ====
section
/-! DEFINITION. Flags: there are none. "The PPE has no status flags and no condition codes of its own" (R31). The one
flag-like value is the error byte of a status frame, which the PPE copies and never tests (R31, R182); here stand the
convenience predicate the spec offers on it, and the labels of the error kinds. -/

namespace Sys2Proof.Machine

/-- "a caller that wants one may use `frame.err != 0`, which the spec offers as a convenience" (R182, D26). No operation of
the machine reads it. -/
def StatusFrame.alarm (f : StatusFrame) : Bool := f.err ≠ 0

/-- The ordinals of R175, "the spec's own, for a model's enumeration" (D25); they are on no wire and in no register. -/
def errorOrdinal : ErrorKind → Nat
  | .timeout => 1
  | .badMarker => 2
  | .frameTooShort => 3
  | .lengthMismatch => 4
  | .integrityMismatch => 5
  | .transportFailure => 6

end Sys2Proof.Machine
end

