-- ==== Sys2Proof/Machine/Operands.lean ====
section
/-! DEFINITION. Operand assembly (R73): the parameter bytes READ and WRITE build, and the admitted operand ranges of the
request encoder. Field bounds and wire lengths are in `Machine/Bytes.lean`. -/

namespace Sys2Proof.Machine

/-- A value in the address and length width of a revision: 1 byte in V1, 2 bytes low first in V2 (R42, R45, R73). -/
def field : Rev → Nat → List Byte
  | .v1, v => [BitVec.ofNat 8 v]
  | .v2, v => le16 (BitVec.ofNat 16 v)

/-- READ's parameter bytes: address, then length (R73). -/
def readParams (rev : Rev) (address length : Nat) : List Byte := field rev address ++ field rev length

/-- WRITE's parameter bytes: address, then the data in the caller's order (R73). -/
def writeParams (rev : Rev) (address : Nat) (data : List Byte) : List Byte := field rev address ++ data

/-- ENCODE_REQUEST (R94, R95): the length-field test, the frame, the packet-size test. -/
def encodeRequest (rev : Rev) (maxPacket : Nat) (id : Byte) (instr : WireInstr) (params : List Byte) :
    Except Refusal (List Byte) :=
  if params.length > maxRequestParams rev then .error .lengthFieldOverflow
  else if (requestFrame rev id instr params).length > maxPacket then .error .packetTooLong
  else .ok (requestFrame rev id instr params)

/-- ENCODE_STATUS (R96, R97) with the field bound of R77. -/
def encodeStatus (rev : Rev) (id err : Byte) (params : List Byte) : Except Refusal (List Byte) :=
  if params.length > maxStatusParams rev then .error .lengthFieldOverflow
  else .ok (statusFrame rev id err params)

end Sys2Proof.Machine
end

