-- ==== Sys2Proof/Machine/Ops.lean ====
section
/-! DEFINITION. The shared operations on the state: admission, the direction line, the trace, WRITE_FRAME and READ_EXACT of
the Transport Adapter (`42_transport.md`), and taking an error and returning to the caller (R186, R187). -/

namespace Sys2Proof.Machine

/-! ### Admission and return -/

/-- The admission every operation but CONSTRUCT passes first: BOUND, else NotBound (R39), then FSM = Idle, else Busy (R140,
R183). `none` is admitted. -/
def State.refusal? (s : State) : Option Refusal :=
  if !s.bound then some .notBound else if s.fsm ≠ .idle then some .busy else none

/-- Runs an admitted operation; a refused one "has no step" (D24). -/
def State.whenAdmitted (s : State) (run : State → Host.Outcome State Fault Refusal) : Host.Outcome State Fault Refusal :=
  match s.refusal? with
  | some r => .refused r
  | none => run s

/-- The operation returns a value to its caller and changes nothing else. -/
def State.give (s : State) (v : Returned) : State := { s with ret := v }

/-- An admitted pure operation of a unit: it returns a value and writes no state of the PPE (R118). -/
def State.answer (s : State) (v : Returned) : Host.Outcome State Fault Refusal := s.whenAdmitted fun s => .next (s.give v)

/-- An admitted operation of one revision, which runs only on a connection of that revision: CFG.REV selects the framing
and the check (R9, R21), and a connection never computes the other revision's check (R117). Log 14, log 15. -/
def State.onRevision (s : State) (rev : Rev) (run : State → Host.Outcome State Fault Refusal) :
    Host.Outcome State Fault Refusal :=
  s.whenAdmitted fun s => if s.cfg.rev ≠ rev then .refused .wrongRevision else run s

/-- A pure operation of one revision: it returns a value and writes no state of the PPE. -/
def State.answerOn (s : State) (rev : Rev) (v : Returned) : Host.Outcome State Fault Refusal :=
  s.onRevision rev fun s => .next (s.give v)

/-- An operation that returns bytes, or is refused. -/
def State.giveBytes (s : State) (r : Except Refusal (List Byte)) : Host.Outcome State Fault Refusal :=
  match r with
  | .error e => .refused e
  | .ok b => .next (s.give (.bytes b))

/-! ### The line -/

/-- Appends events to TXTRACE (R33). -/
def State.log (s : State) (events : List Event) : State := { s with trace := s.trace ++ events }

/-- `DIR <- d`, with its event. -/
def State.drive (s : State) (d : Direction) : State := { s with dir := d, trace := s.trace ++ [.dir d] }

/-- The environment's answer to the coming TxPut. -/
def Environment.nextTx (e : Environment) : TxAnswer := e.tx.headD { arrivals := [], fault := none }

/-- The environment's answer to the coming RxTake. -/
def Environment.nextRx (e : Environment) : RxAnswer := e.rx.headD { arrivals := [], fault := none }

/-- The bytes that arrive before the coming step in Idle. -/
def Environment.arriving (e : Environment) : List Byte := e.between.headD []

/-- Bytes enter RXQ "from the environment at any time, including ... between transactions" (R34): those that arrive before a
step in Idle, bound or not, join RXQ behind the pending ones. Log 4. -/
def State.arrive (s : State) : State :=
  { s with rxq := s.rxq ++ s.env.arriving, env := { s.env with between := s.env.between.tail } }

/-- What an operation of the Transport Adapter answers: a value, or the error it raises. -/
inductive Answer (α : Type)
  | ok (value : α)
  | raised (k : ErrorKind)
  deriving DecidableEq, Repr

/-- TxPut and TxDrain (R126): the bytes in offset order and Drained; or, if the environment reports a fault, a prefix of
them and TxFail, with no drain (R128) and RXQ as the environment leaves it (U5). Bytes that arrive meanwhile stay in RXQ, all of them: the spec does not give the
channel's capacity (R189, N9), and that RXQ has no bound is a DESIGN CHOICE (log 37). -/
def State.send (s : State) (bytes : List Byte) : State :=
  let a := s.env.nextTx
  match a.fault with
  | none =>
    { s with trace := s.trace ++ (bytes.map .tx ++ [.drained]), rxq := s.rxq ++ a.arrivals,
             env := { s.env with tx := s.env.tx.tail } }
  | some f =>
    { s with trace := s.trace ++ ((bytes.take f.sent).map .tx ++ [.txFail]), rxq := f.rxqAfter,
             env := { s.env with tx := s.env.tx.tail } }

/-- WRITE_FRAME (R126). `DIR <- RX` "is executed on every path out of WRITE_FRAME" (R128). -/
def writeFrame (bytes : List Byte) (s : State) : State × Answer Unit :=
  (((s.drive .tx).send bytes).drive .rx,
   match s.env.nextTx.fault with
   | none => .ok ()
   | some _ => .raised .transportFailure)

/-- The event of a successful receive: the echo discard writes RxDiscarded in place of RxTaken (R129, R142). -/
def takenEvent (discard : Bool) (b : List Byte) : Event := if discard then .rxDiscarded b else .rxTaken b

/-- READ_EXACT (R129). The pending bytes are those of RXQ and those that arrive before the wait ends (R34), however many
(log 37). A receive that times out consumes what had arrived (R132). -/
def readExact (discard : Bool) (n : Nat) (s : State) : State × Answer (List Byte) :=
  if n = 0 then (s, .ok [])
  else
    let a := s.env.nextRx
    let env := { s.env with rx := s.env.rx.tail }
    match a.fault with
    | some rxqAfter => ({ s with env := env, rxq := rxqAfter, trace := s.trace ++ [.rxFail] }, .raised .transportFailure)
    | none =>
      let q := s.rxq ++ a.arrivals
      if n ≤ q.length then
        ({ s with env := env, rxq := q.drop n, trace := s.trace ++ [takenEvent discard (q.take n)] }, .ok (q.take n))
      else
        ({ s with env := env, rxq := [], trace := s.trace ++ [.rxTimeout q] }, .raised .timeout)

/-! ### Taking an error and returning -/

/-- Error entry (R186): OUT <- Err(kind), FSM <- Done. Nothing else is saved; DIR is RX already. -/
def State.raise (s : State) (k : ErrorKind) : State := { s with out := some (.err k), fsm := .done }

/-- A transaction that succeeds: OUT is written in the transition to Done (R30). -/
def State.finish (s : State) (o : TxnOutcome) : State := { s with out := some o, fsm := .done }

/-- "the latches and buffers die" (R186, R144). -/
def State.dropLatches (s : State) : State := { s with req := Request.dead, txbuf := [], rxbuf := [], out := none }

/-- The value OUT hands over. -/
def Returned.ofOut : Option TxnOutcome → Returned
  | some o => .outcome o
  | none => .nothing

/-- State Done (R144), which is also the return from an error (R187): "OUT is handed to the caller, the latches and buffers
die, and FSM returns to Idle." -/
def State.returnToCaller (s : State) : State :=
  { s.dropLatches with ret := Returned.ofOut s.out, fsm := .idle }

end Sys2Proof.Machine
end

