-- ==== Sys2Proof/Machine/Engine.lean ====
section
/-! DEFINITION. The Transaction Engine (`43_transaction.md`): the four states of the sequencer, each a function of the
latches, and TRANSACT as their walk "in order, without interruption, to the return of OUT" (R140). -/

namespace Sys2Proof.Machine

/-- The latches at the acceptance of TRANSACT (R28), and the encoded frame in TXBUF (R141). -/
def State.accept (s : State) (req : Request) (frame : List Byte) : State := { s with req := req, txbuf := frame }

/-- The rest of state Idle (R141): WRITE_FRAME(TXBUF), then AwaitFirst. -/
def State.sendRequest (s : State) : State :=
  match writeFrame s.txbuf s with
  | (s', .ok _) => { s' with fsm := .awaitFirst }
  | (s', .raised k) => s'.raise k

/-- State AwaitFirst (R142): if CFG.MULT = 2, one discard read of CFG.ECHO_LEN bytes. R29 says that the content of RXBUF is then
dropped and gives RXBUF no value until the status receive; that it keeps the echo bytes until then, and through Done if that
receive fails, is a DESIGN CHOICE (log 2). Nothing reads it. -/
def State.awaitFirst (s : State) : State :=
  if s.cfg.mult = 2 then
    match readExact true s.cfg.echoLen s with
    | (s', .ok b) => { s' with rxbuf := b, fsm := .awaitReply }
    | (s', .raised k) => s'.raise k
  else { s with fsm := .awaitReply }

/-- The decoded reply becomes the outcome (R143). With CHECK_STATUS_ID set, a frame of another id would be an error of a kind
the spec does not give (R19, log 23); it is not set. -/
def State.deliver (s : State) : Decoded → State
  | .error k => s.raise k
  | .frame f => if checkStatusId && f.id ≠ s.req.id then s.raise Config.idMismatchKind else s.finish (.okSome f)

/-- State AwaitReply (R143): if CFG.MULT >= 1, one receive of STATUS_WIRE_LEN(CFG.REV, REQ.N) bytes and their decode. -/
def State.awaitReply (s : State) : State :=
  if s.cfg.mult ≠ 0 then
    match readExact false (statusWireLen s.cfg.rev s.req.n) s with
    | (s', .ok b) => { s' with rxbuf := b }.deliver (decodeStatus s.cfg.rev s.req.n b)
    | (s', .raised k) => s'.raise k
  else s.finish .okNone

/-- One step of the sequencer from the state FSM is in. In Idle there is nothing to advance. -/
def State.advance (s : State) : State :=
  match s.fsm with
  | .idle => s
  | .awaitFirst => s.awaitFirst
  | .awaitReply => s.awaitReply
  | .done => s.returnToCaller

/-- From the end of state Idle to the return: at most three more states (R27). -/
def State.runToReturn (s : State) : State := s.advance.advance.advance

/-- An admitted transaction from acceptance to return. -/
def State.transaction (s : State) (req : Request) (frame : List Byte) : State :=
  ((s.accept req frame).sendRequest).runToReturn

/-- TRANSACT past BOUND and FSM (R140): the bounds of P and N, ENCODE_REQUEST, which "may refuse(PacketTooLong): nothing
sent", then the transaction. -/
def transactAdmitted (id : Byte) (instr : WireInstr) (params : List Byte) (n : Nat) (s : State) :
    Host.Outcome State Fault Refusal :=
  if !requestFits s.cfg.rev params.length n then .refused .lengthFieldOverflow
  else
    match encodeRequest s.cfg.rev s.cfg.maxPacket id instr params with
    | .error r => .refused r
    | .ok frame => .next (s.transaction { id := id, instr := instr, params := params, n := n } frame)

/-- A request instruction of revision `rev` (R61, R62, R69): the transaction of that instruction, on a connection of that
revision. Log 15. -/
def requestOn (rev : Rev) (instr : WireInstr) (id : Byte) (params : List Byte) (n : Nat) (s : State) :
    Host.Outcome State Fault Refusal :=
  s.onRevision rev (transactAdmitted id instr params n)

end Sys2Proof.Machine
end

