-- ==== Sys2Proof/Machine/CodecOps.lean ====
section
/-! DEFINITION. The Frame Codec's operations as instructions: each returns its value to the caller and writes no state of the PPE
("it reads and writes no state", `40_frame_codec.md`). A row of one revision runs on connections of that revision (R9, R21, R117,
log 14); STUFF and UNSTUFF_TAKE compute no check, and their operand is a V2 body whatever the connection (R90, R91). -/

namespace Sys2Proof.Machine

/-- ENCODE_REQUEST, revision V1 (R94). -/
def execEncodeRequestV1 (id : Byte) (instr : WireInstr) (params : List Byte) (s : State) : Host.Outcome State Fault Refusal :=
  s.onRevision .v1 fun s => s.giveBytes (encodeRequest .v1 s.cfg.maxPacket id instr params)

/-- ENCODE_REQUEST, revision V2 (R95). -/
def execEncodeRequestV2 (id : Byte) (instr : WireInstr) (params : List Byte) (s : State) : Host.Outcome State Fault Refusal :=
  s.onRevision .v2 fun s => s.giveBytes (encodeRequest .v2 s.cfg.maxPacket id instr params)

/-- ENCODE_STATUS, revision V1 (R96). -/
def execEncodeStatusV1 (id err : Byte) (params : List Byte) (s : State) : Host.Outcome State Fault Refusal :=
  s.onRevision .v1 fun s => s.giveBytes (encodeStatus .v1 id err params)

/-- ENCODE_STATUS, revision V2 (R97). -/
def execEncodeStatusV2 (id err : Byte) (params : List Byte) (s : State) : Host.Outcome State Fault Refusal :=
  s.onRevision .v2 fun s => s.giveBytes (encodeStatus .v2 id err params)

/-- DECODE_STATUS, revision V1 (R98). -/
def execDecodeStatusV1 (n : Nat) (bytes : List Byte) (s : State) : Host.Outcome State Fault Refusal :=
  s.answerOn .v1 (.decoded (decodeStatusV1 n bytes))

/-- DECODE_STATUS, revision V2 (R99). -/
def execDecodeStatusV2 (n : Nat) (bytes : List Byte) (s : State) : Host.Outcome State Fault Refusal :=
  s.answerOn .v2 (.decoded (decodeStatusV2 n bytes))

/-- STUFF (R90). -/
def execStuff (body : List Byte) (s : State) : Host.Outcome State Fault Refusal :=
  s.answer (.bytes (stuff body))

/-- UNSTUFF_TAKE (R91); `none` is Short. -/
def execUnstuffTake (wire : List Byte) (k : Nat) (s : State) : Host.Outcome State Fault Refusal :=
  s.answer (.taken (unstuffTake wire k))

end Sys2Proof.Machine
end

