-- ==== Sys2Proof/Machine/Connection.lean ====
section
/-! DEFINITION. CONSTRUCT and TEARDOWN (`70_reset_and_hazards.md` R200 to R202). -/

namespace Sys2Proof.Machine

/-- What the serial channel holds when it is bound: "unspecified, whatever the serial channel holds" (R34, U1), so the
environment says; without an answer of it, RXQ is as it was ("no flush of RXQ", R200). Log 7. -/
def State.boundRxq (s : State) : List Byte := s.env.bind.headD s.rxq

/-- The state after an admitted CONSTRUCT (R200, R38): TXTRACE is empty, no latch holds anything, nothing is sent or read. -/
def State.constructed (s : State) (cfg : Cfg) : State :=
  { s.dropLatches with
    bound := true, cfg := cfg, dir := .rx, fsm := .idle, trace := [], rxq := s.boundRxq,
    env := { s.env with bind := s.env.bind.tail }, ret := .unit }

/-- CONSTRUCT (R200). The channel and the direction line are "opaque handles to the environment": one PPE owns one line
(R192), so nothing of the state depends on which they are (log 7). -/
def execConstruct (_channel _dirline : Handle) (rev : Rev) (mult : BitVec 2) (echoLen : Nat) (timeout : TimeoutToken)
    (maxPacket : Nat) (s : State) : Host.Outcome State Fault Refusal :=
  if s.bound then .refused .busy
  else if mult = 3 then .refused .badConfiguration
  else .next (s.constructed { rev := rev, mult := mult, echoLen := echoLen, timeout := timeout, maxPacket := maxPacket })

/-- TEARDOWN (R202): BOUND <- false, DIR stays RX, nothing is sent. -/
def execTeardown (s : State) : Host.Outcome State Fault Refusal :=
  s.whenAdmitted fun s => .next { s with bound := false, ret := .unit }

end Sys2Proof.Machine
end

