-- ==== Sys2Proof/Machine/Facade.lean ====
section
/-! DEFINITION. TRANSACT (R140) and the Register Access Facade: PING, READ, WRITE, "thin compositions: each expands to exactly one
TRANSACT" (R82, `44_register_access.md`). -/

namespace Sys2Proof.Machine

/-- TRANSACT (R140): BOUND, else NotBound; FSM = Idle, else Busy; then the transaction. -/
def execTransact (id : Byte) (instr : WireInstr) (params : List Byte) (n : Nat) (s : State) : Host.Outcome State Fault Refusal :=
  s.whenAdmitted (transactAdmitted id instr params n)

/-- PING(id) = TRANSACT(id, Ping, [], 0) (R160). -/
def execPing (id : Byte) (s : State) : Host.Outcome State Fault Refusal :=
  execTransact id .ping [] 0 s

/-- READ(id, address, length) (R161): N is the length asked for. -/
def execRead (id : Byte) (address length : Nat) (s : State) : Host.Outcome State Fault Refusal :=
  s.whenAdmitted fun s =>
    if !readFits s.cfg.rev address length then .refused .operandOutOfRange
    else execTransact id .read (readParams s.cfg.rev address length) length s

/-- WRITE(id, address, data) (R162): "The expected status parameter count is 0" (D16). -/
def execWrite (id : Byte) (address : Nat) (data : List Byte) (s : State) : Host.Outcome State Fault Refusal :=
  s.whenAdmitted fun s =>
    if !writeFits s.cfg.rev address data.length then .refused .operandOutOfRange
    else execTransact id .write (writeParams s.cfg.rev address data) 0 s

end Sys2Proof.Machine
end

