-- ==== Sys2Proof/Machine/IntegrityOps.lean ====
section
/-! DEFINITION. The Integrity Check's operations as instructions (`41_integrity.md`): "CHK8, CRC16, COMPUTE and VERIFY read no
state and write none" (R118); each returns its value to the caller, and
runs on connections of the revision whose check it computes: "A V1 connection never computes a CRC and a V2 connection never
computes a checksum" (R117, log 14). -/

namespace Sys2Proof.Machine

/-- The revision operand of COMPUTE (R117). -/
def rangeRev : CheckedRange → Rev
  | .v1 _ => .v1
  | .v2 _ _ => .v2

/-- The revision operand of VERIFY (R116). -/
def operandsRev : VerifyOperands → Rev
  | .v1 _ _ => .v1
  | .v2 _ _ _ => .v2

/-- CHK8 (R110). -/
def execChk8 (range : List Byte) (s : State) : Host.Outcome State Fault Refusal :=
  s.answerOn .v1 (.check (.v1 (chk8 range)))

/-- CRC16 (R112). -/
def execCrc16 (range : List Byte) (s : State) : Host.Outcome State Fault Refusal :=
  s.answerOn .v2 (.check (.v2 (crc16 range)))

/-- CRC16_OF_BODY (R114). -/
def execCrc16OfBody (body wbody : List Byte) (s : State) : Host.Outcome State Fault Refusal :=
  s.answerOn .v2 (.check (.v2 (crc16OfBody switches body wbody)))

/-- VERIFY (R116). -/
def execVerify (operands : VerifyOperands) (s : State) : Host.Outcome State Fault Refusal :=
  s.answerOn (operandsRev operands) (.bool (verify switches operands))

/-- COMPUTE (R117). -/
def execCompute (range : CheckedRange) (s : State) : Host.Outcome State Fault Refusal :=
  s.answerOn (rangeRev range) (.check (compute switches range))

end Sys2Proof.Machine
end

