-- ==== Sys2Proof/Machine/RequestsV1.lean ====
section
/-! DEFINITION. The sixteen request instructions in format V1REQ (R69, R61, R94). Each is one transaction of its instruction
on a V1 connection: "the core only needs to transport the opcode and raw parameter bytes" (R69, R163). -/

namespace Sys2Proof.Machine

/-- V1.Ping (R160, R150): the request frame with instruction byte INSTR_CODE(Ping), in one transaction. -/
def execV1Ping (id : Byte) (params : List Byte) (n : Nat) (s : State) : Host.Outcome State Fault Refusal :=
  requestOn .v1 .ping id params n s

/-- V1.Read (R161): the request frame with instruction byte INSTR_CODE(Read), in one transaction. -/
def execV1Read (id : Byte) (params : List Byte) (n : Nat) (s : State) : Host.Outcome State Fault Refusal :=
  requestOn .v1 .read id params n s

/-- V1.Write (R162): the request frame with instruction byte INSTR_CODE(Write), in one transaction. -/
def execV1Write (id : Byte) (params : List Byte) (n : Nat) (s : State) : Host.Outcome State Fault Refusal :=
  requestOn .v1 .write id params n s

/-- V1.RegisteredWrite (R163): the request frame with instruction byte INSTR_CODE(RegisteredWrite), in one transaction. -/
def execV1RegisteredWrite (id : Byte) (params : List Byte) (n : Nat) (s : State) : Host.Outcome State Fault Refusal :=
  requestOn .v1 .registeredWrite id params n s

/-- V1.TriggerAction (R163): the request frame with instruction byte INSTR_CODE(TriggerAction), in one transaction. -/
def execV1TriggerAction (id : Byte) (params : List Byte) (n : Nat) (s : State) : Host.Outcome State Fault Refusal :=
  requestOn .v1 .triggerAction id params n s

/-- V1.FactoryReset (R163): the request frame with instruction byte INSTR_CODE(FactoryReset), in one transaction. -/
def execV1FactoryReset (id : Byte) (params : List Byte) (n : Nat) (s : State) : Host.Outcome State Fault Refusal :=
  requestOn .v1 .factoryReset id params n s

/-- V1.Reboot (R163): the request frame with instruction byte INSTR_CODE(Reboot), in one transaction. -/
def execV1Reboot (id : Byte) (params : List Byte) (n : Nat) (s : State) : Host.Outcome State Fault Refusal :=
  requestOn .v1 .reboot id params n s

/-- V1.Clear (R163): the request frame with instruction byte INSTR_CODE(Clear), in one transaction. -/
def execV1Clear (id : Byte) (params : List Byte) (n : Nat) (s : State) : Host.Outcome State Fault Refusal :=
  requestOn .v1 .clear id params n s

/-- V1.ControlTableBackup (R163): the request frame with instruction byte INSTR_CODE(ControlTableBackup), in one transaction. -/
def execV1ControlTableBackup (id : Byte) (params : List Byte) (n : Nat) (s : State) : Host.Outcome State Fault Refusal :=
  requestOn .v1 .controlTableBackup id params n s

/-- V1.StatusReturn (R163): the request frame with instruction byte INSTR_CODE(StatusReturn), in one transaction. -/
def execV1StatusReturn (id : Byte) (params : List Byte) (n : Nat) (s : State) : Host.Outcome State Fault Refusal :=
  requestOn .v1 .statusReturn id params n s

/-- V1.SyncRead (R163): the request frame with instruction byte INSTR_CODE(SyncRead), in one transaction. -/
def execV1SyncRead (id : Byte) (params : List Byte) (n : Nat) (s : State) : Host.Outcome State Fault Refusal :=
  requestOn .v1 .syncRead id params n s

/-- V1.SyncWrite (R163): the request frame with instruction byte INSTR_CODE(SyncWrite), in one transaction. -/
def execV1SyncWrite (id : Byte) (params : List Byte) (n : Nat) (s : State) : Host.Outcome State Fault Refusal :=
  requestOn .v1 .syncWrite id params n s

/-- V1.FastSyncRead (R163): the request frame with instruction byte INSTR_CODE(FastSyncRead), in one transaction. -/
def execV1FastSyncRead (id : Byte) (params : List Byte) (n : Nat) (s : State) : Host.Outcome State Fault Refusal :=
  requestOn .v1 .fastSyncRead id params n s

/-- V1.BulkRead (R163): the request frame with instruction byte INSTR_CODE(BulkRead), in one transaction. -/
def execV1BulkRead (id : Byte) (params : List Byte) (n : Nat) (s : State) : Host.Outcome State Fault Refusal :=
  requestOn .v1 .bulkRead id params n s

/-- V1.BulkWrite (R163): the request frame with instruction byte INSTR_CODE(BulkWrite), in one transaction. -/
def execV1BulkWrite (id : Byte) (params : List Byte) (n : Nat) (s : State) : Host.Outcome State Fault Refusal :=
  requestOn .v1 .bulkWrite id params n s

/-- V1.FastBulkRead (R163): the request frame with instruction byte INSTR_CODE(FastBulkRead), in one transaction. -/
def execV1FastBulkRead (id : Byte) (params : List Byte) (n : Nat) (s : State) : Host.Outcome State Fault Refusal :=
  requestOn .v1 .fastBulkRead id params n s

end Sys2Proof.Machine
end

