-- ==== Sys2Proof/Machine/RequestsV2.lean ====
section
/-! DEFINITION. The sixteen request instructions in format V2REQ (R69, R62, R95). Each is one transaction of its instruction
on a V2 connection: "the core only needs to transport the opcode and raw parameter bytes" (R69, R163). -/

namespace Sys2Proof.Machine

/-- V2.Ping (R160, R150): the request frame with instruction byte INSTR_CODE(Ping), in one transaction. -/
def execV2Ping (id : Byte) (params : List Byte) (n : Nat) (s : State) : Host.Outcome State Fault Refusal :=
  requestOn .v2 .ping id params n s

/-- V2.Read (R161): the request frame with instruction byte INSTR_CODE(Read), in one transaction. -/
def execV2Read (id : Byte) (params : List Byte) (n : Nat) (s : State) : Host.Outcome State Fault Refusal :=
  requestOn .v2 .read id params n s

/-- V2.Write (R162): the request frame with instruction byte INSTR_CODE(Write), in one transaction. -/
def execV2Write (id : Byte) (params : List Byte) (n : Nat) (s : State) : Host.Outcome State Fault Refusal :=
  requestOn .v2 .write id params n s

/-- V2.RegisteredWrite (R163): the request frame with instruction byte INSTR_CODE(RegisteredWrite), in one transaction. -/
def execV2RegisteredWrite (id : Byte) (params : List Byte) (n : Nat) (s : State) : Host.Outcome State Fault Refusal :=
  requestOn .v2 .registeredWrite id params n s

/-- V2.TriggerAction (R163): the request frame with instruction byte INSTR_CODE(TriggerAction), in one transaction. -/
def execV2TriggerAction (id : Byte) (params : List Byte) (n : Nat) (s : State) : Host.Outcome State Fault Refusal :=
  requestOn .v2 .triggerAction id params n s

/-- V2.FactoryReset (R163): the request frame with instruction byte INSTR_CODE(FactoryReset), in one transaction. -/
def execV2FactoryReset (id : Byte) (params : List Byte) (n : Nat) (s : State) : Host.Outcome State Fault Refusal :=
  requestOn .v2 .factoryReset id params n s

/-- V2.Reboot (R163): the request frame with instruction byte INSTR_CODE(Reboot), in one transaction. -/
def execV2Reboot (id : Byte) (params : List Byte) (n : Nat) (s : State) : Host.Outcome State Fault Refusal :=
  requestOn .v2 .reboot id params n s

/-- V2.Clear (R163): the request frame with instruction byte INSTR_CODE(Clear), in one transaction. -/
def execV2Clear (id : Byte) (params : List Byte) (n : Nat) (s : State) : Host.Outcome State Fault Refusal :=
  requestOn .v2 .clear id params n s

/-- V2.ControlTableBackup (R163): the request frame with instruction byte INSTR_CODE(ControlTableBackup), in one transaction. -/
def execV2ControlTableBackup (id : Byte) (params : List Byte) (n : Nat) (s : State) : Host.Outcome State Fault Refusal :=
  requestOn .v2 .controlTableBackup id params n s

/-- V2.StatusReturn (R163): the request frame with instruction byte INSTR_CODE(StatusReturn), in one transaction. -/
def execV2StatusReturn (id : Byte) (params : List Byte) (n : Nat) (s : State) : Host.Outcome State Fault Refusal :=
  requestOn .v2 .statusReturn id params n s

/-- V2.SyncRead (R163): the request frame with instruction byte INSTR_CODE(SyncRead), in one transaction. -/
def execV2SyncRead (id : Byte) (params : List Byte) (n : Nat) (s : State) : Host.Outcome State Fault Refusal :=
  requestOn .v2 .syncRead id params n s

/-- V2.SyncWrite (R163): the request frame with instruction byte INSTR_CODE(SyncWrite), in one transaction. -/
def execV2SyncWrite (id : Byte) (params : List Byte) (n : Nat) (s : State) : Host.Outcome State Fault Refusal :=
  requestOn .v2 .syncWrite id params n s

/-- V2.FastSyncRead (R163): the request frame with instruction byte INSTR_CODE(FastSyncRead), in one transaction. -/
def execV2FastSyncRead (id : Byte) (params : List Byte) (n : Nat) (s : State) : Host.Outcome State Fault Refusal :=
  requestOn .v2 .fastSyncRead id params n s

/-- V2.BulkRead (R163): the request frame with instruction byte INSTR_CODE(BulkRead), in one transaction. -/
def execV2BulkRead (id : Byte) (params : List Byte) (n : Nat) (s : State) : Host.Outcome State Fault Refusal :=
  requestOn .v2 .bulkRead id params n s

/-- V2.BulkWrite (R163): the request frame with instruction byte INSTR_CODE(BulkWrite), in one transaction. -/
def execV2BulkWrite (id : Byte) (params : List Byte) (n : Nat) (s : State) : Host.Outcome State Fault Refusal :=
  requestOn .v2 .bulkWrite id params n s

/-- V2.FastBulkRead (R163): the request frame with instruction byte INSTR_CODE(FastBulkRead), in one transaction. -/
def execV2FastBulkRead (id : Byte) (params : List Byte) (n : Nat) (s : State) : Host.Outcome State Fault Refusal :=
  requestOn .v2 .fastBulkRead id params n s

end Sys2Proof.Machine
end

