-- ==== Sys2Proof/Machine/Status.lean ====
section
/-! DEFINITION. The rows V1.STATUS and V2.STATUS: a status frame as the PPE takes it off the wire, decoded under CFG.REV (R98, R99).
Log 16. -/

namespace Sys2Proof.Machine

/-- V1.STATUS (R63, R98): the wire bytes of the frame, with the checksum it carries, go through DECODE_STATUS(CFG.REV, N, ...).
On a V2 connection that is the revision mismatch of R206. -/
def execV1Status (id err : Byte) (params : List Byte) (check : Byte) (n : Nat) (s : State) : Host.Outcome State Fault Refusal :=
  s.whenAdmitted fun s =>
    if params.length > maxStatusParams .v1 then .refused .lengthFieldOverflow
    else .next (s.give (.decoded (decodeStatus s.cfg.rev n (v1StatusBytes id err params check))))

/-- V2.STATUS (R64, R99): likewise, with the instruction byte and the CRC the frame carries. The decoder does not compare the
instruction byte (R74, D10). On a V1 connection that is the revision mismatch of R206. -/
def execV2Status (id instr err : Byte) (params : List Byte) (check : Word) (n : Nat) (s : State) : Host.Outcome State Fault Refusal :=
  s.whenAdmitted fun s =>
    if params.length > maxStatusParams .v2 then .refused .lengthFieldOverflow
    else .next (s.give (.decoded (decodeStatus s.cfg.rev n (v2StatusBytes id instr err params check))))

/-- The operation that received bytes are, on a connection of revision `rev` (R60: a status frame goes from the bus to the
PPE): the status row they are a frame of, else DECODE_STATUS of them as they stand, which names their defect (R98, R99). -/
def receivedStatus (rev : Rev) (n : Nat) (bytes : List Byte) : Instr :=
  match decodeFrame rev .status n bytes, rev with
  | .ok i, _ => i
  | .error _, .v1 => .decodeStatusV1 n bytes
  | .error _, .v2 => .decodeStatusV2 n bytes

end Sys2Proof.Machine
end

