-- ==== Sys2Proof/Machine/TransportOps.lean ====
section
/-! DEFINITION. The Transport Adapter's two operations as instructions of their own (`42_transport.md`). They are "not offered to
the caller, only to TRANSACT" (R125): the host cannot issue them (`offered`, log 13), and TRANSACT runs the functions `writeFrame`
and `readExact` they are built on. -/

namespace Sys2Proof.Machine

/-- The operations a caller can issue: all but WRITE_FRAME and READ_EXACT (R125). R81 calls the operations of the codec and of
the integrity unit internal, and R96 says that the PPE never executes ENCODE_STATUS, while R191 lets the connection's owner
"call every operation" and INDEX.md has them issued by the host. That the host can issue them is a DESIGN CHOICE (log 38): they
return a value and write no other state. -/
def offered : Instr → Bool
  | .writeFrame _ => false
  | .readExact _ => false
  | _ => true

/-- WRITE_FRAME (R126). Its operand is "at most MAX_PACKET" long: a longer one is PacketTooLong (R12). -/
def execWriteFrame (bytes : List Byte) (s : State) : Host.Outcome State Fault Refusal :=
  s.whenAdmitted fun s =>
    if bytes.length > s.cfg.maxPacket then .refused .packetTooLong
    else
      match writeFrame bytes s with
      | (s', .ok _) => .next (s'.give .unit)
      | (s', .raised k) => .next (s'.give (.raised k))

/-- READ_EXACT (R129), an ordinary receive. -/
def execReadExact (n : Nat) (s : State) : Host.Outcome State Fault Refusal :=
  s.whenAdmitted fun s =>
    match readExact false n s with
    | (s', .ok b) => .next (s'.give (.bytes b))
    | (s', .raised k) => .next (s'.give (.raised k))

end Sys2Proof.Machine
end

