-- ==== Sys2Proof/Machine/Dispatch.lean ====
section
/-! DEFINITION. One arm per instruction, in the order of spec/opcode_table.json. -/

namespace Sys2Proof.Machine

def exec (i : Instr) (s : State) : Host.Outcome State Fault Refusal :=
  match i with
  | .v1Ping id params n => Sys2Proof.Machine.execV1Ping id params n s
  | .v1Read id params n => Sys2Proof.Machine.execV1Read id params n s
  | .v1Write id params n => Sys2Proof.Machine.execV1Write id params n s
  | .v1RegisteredWrite id params n => Sys2Proof.Machine.execV1RegisteredWrite id params n s
  | .v1TriggerAction id params n => Sys2Proof.Machine.execV1TriggerAction id params n s
  | .v1FactoryReset id params n => Sys2Proof.Machine.execV1FactoryReset id params n s
  | .v1Reboot id params n => Sys2Proof.Machine.execV1Reboot id params n s
  | .v1Clear id params n => Sys2Proof.Machine.execV1Clear id params n s
  | .v1ControlTableBackup id params n => Sys2Proof.Machine.execV1ControlTableBackup id params n s
  | .v1StatusReturn id params n => Sys2Proof.Machine.execV1StatusReturn id params n s
  | .v1SyncRead id params n => Sys2Proof.Machine.execV1SyncRead id params n s
  | .v1SyncWrite id params n => Sys2Proof.Machine.execV1SyncWrite id params n s
  | .v1FastSyncRead id params n => Sys2Proof.Machine.execV1FastSyncRead id params n s
  | .v1BulkRead id params n => Sys2Proof.Machine.execV1BulkRead id params n s
  | .v1BulkWrite id params n => Sys2Proof.Machine.execV1BulkWrite id params n s
  | .v1FastBulkRead id params n => Sys2Proof.Machine.execV1FastBulkRead id params n s
  | .v2Ping id params n => Sys2Proof.Machine.execV2Ping id params n s
  | .v2Read id params n => Sys2Proof.Machine.execV2Read id params n s
  | .v2Write id params n => Sys2Proof.Machine.execV2Write id params n s
  | .v2RegisteredWrite id params n => Sys2Proof.Machine.execV2RegisteredWrite id params n s
  | .v2TriggerAction id params n => Sys2Proof.Machine.execV2TriggerAction id params n s
  | .v2FactoryReset id params n => Sys2Proof.Machine.execV2FactoryReset id params n s
  | .v2Reboot id params n => Sys2Proof.Machine.execV2Reboot id params n s
  | .v2Clear id params n => Sys2Proof.Machine.execV2Clear id params n s
  | .v2ControlTableBackup id params n => Sys2Proof.Machine.execV2ControlTableBackup id params n s
  | .v2StatusReturn id params n => Sys2Proof.Machine.execV2StatusReturn id params n s
  | .v2SyncRead id params n => Sys2Proof.Machine.execV2SyncRead id params n s
  | .v2SyncWrite id params n => Sys2Proof.Machine.execV2SyncWrite id params n s
  | .v2FastSyncRead id params n => Sys2Proof.Machine.execV2FastSyncRead id params n s
  | .v2BulkRead id params n => Sys2Proof.Machine.execV2BulkRead id params n s
  | .v2BulkWrite id params n => Sys2Proof.Machine.execV2BulkWrite id params n s
  | .v2FastBulkRead id params n => Sys2Proof.Machine.execV2FastBulkRead id params n s
  | .v1Status id err params check n => Sys2Proof.Machine.execV1Status id err params check n s
  | .v2Status id instr err params check n => Sys2Proof.Machine.execV2Status id instr err params check n s
  | .construct channel dirline rev mult echoLen timeout maxPacket => Sys2Proof.Machine.execConstruct channel dirline rev mult echoLen timeout maxPacket s
  | .teardown => Sys2Proof.Machine.execTeardown s
  | .ping id => Sys2Proof.Machine.execPing id s
  | .read id address length => Sys2Proof.Machine.execRead id address length s
  | .write id address data => Sys2Proof.Machine.execWrite id address data s
  | .transact id instr params n => Sys2Proof.Machine.execTransact id instr params n s
  | .encodeRequestV1 id instr params => Sys2Proof.Machine.execEncodeRequestV1 id instr params s
  | .encodeRequestV2 id instr params => Sys2Proof.Machine.execEncodeRequestV2 id instr params s
  | .encodeStatusV1 id err params => Sys2Proof.Machine.execEncodeStatusV1 id err params s
  | .encodeStatusV2 id err params => Sys2Proof.Machine.execEncodeStatusV2 id err params s
  | .decodeStatusV1 n bytes => Sys2Proof.Machine.execDecodeStatusV1 n bytes s
  | .decodeStatusV2 n bytes => Sys2Proof.Machine.execDecodeStatusV2 n bytes s
  | .stuff body => Sys2Proof.Machine.execStuff body s
  | .unstuffTake wire k => Sys2Proof.Machine.execUnstuffTake wire k s
  | .chk8 range => Sys2Proof.Machine.execChk8 range s
  | .crc16 range => Sys2Proof.Machine.execCrc16 range s
  | .crc16OfBody body wbody => Sys2Proof.Machine.execCrc16OfBody body wbody s
  | .verify operands => Sys2Proof.Machine.execVerify operands s
  | .compute range => Sys2Proof.Machine.execCompute range s
  | .writeFrame bytes => Sys2Proof.Machine.execWriteFrame bytes s
  | .readExact n => Sys2Proof.Machine.execReadExact n s

end Sys2Proof.Machine
end

