-- ==== Sys2Proof/Machine/Step.lean ====
section
/-! DEFINITION. One step. While a transaction runs (FSM is not Idle) the sequencer advances: FSM "plays the part a program
counter plays" (R27). In Idle the bytes that arrived since the last operation join RXQ (R34), and the next operation of the
host is taken whole (R57) and executed. -/

namespace Sys2Proof.Machine

/-- The instruction a command of the host stands for under CFG.REV (R60): an operation the caller is offered as it is
(R125), a request frame as its bytes decode, received bytes as what the status decoder makes of them, whatever they are. -/
def Command.instr (c : Command) (rev : Rev) : Except Refusal Instr :=
  match c with
  | .call i => if offered i then .ok i else .error .notOffered
  | .frame .request n bytes =>
    match decodeFrame rev .request n bytes with
    | .ok i => .ok i
    | .error why => .error (.undecodable why)
  | .frame .status n bytes => .ok (receivedStatus rev n bytes)

/-- Takes the operation the host issues next and runs it. Without one the PPE waits, unchanged. A command that stands for no
operation the caller is offered is refused by name, behind the admission tests: an unbound PPE names NotBound for it, as for
every operation but CONSTRUCT (R39). That order is a DESIGN CHOICE (log 39). -/
def State.issue (s : State) : Host.Outcome State Fault Refusal :=
  match s.pending with
  | [] => .next s
  | c :: rest =>
    match c.instr s.cfg.rev with
    | .error why => s.whenAdmitted fun _ => .refused why
    | .ok i => exec i { s with pending := rest }

/-- One step of the machine. No run from reset has a state outside Idle between steps, because `exec` runs a transaction to
its return (R140); such a state goes on from where FSM stands. Log 10. -/
def step (s : State) : Host.Outcome State Fault Refusal :=
  match s.fsm with
  | .idle => s.arrive.issue
  | _ => .next s.advance

/-- The frame of a table word becomes the operation the host issues next, on a connection that can run it: BOUND, FSM Idle,
CFG.REV the revision of the word's row ("a row is read within its revision", INDEX.md), MAX_PACKET no smaller than the
frame. N is 0. This is how a program comes to run: the host issues it (R204). Log 9, log 18. -/
def State.withFetchWord (s : State) (nbits w : Nat) : State :=
  let b := tableFrame nbits w
  { s with
    pending := .frame (tableKind (tableRev nbits) (tableBytes nbits w)) 0 b :: s.pending
    bound := true
    fsm := .idle
    cfg := { s.cfg with rev := tableRev nbits, maxPacket := max s.cfg.maxPacket b.length } }

end Sys2Proof.Machine
end

