-- ==== Sys2Proof/Safety.lean ====
section
/-! DEFINITION. The terms the statements use: when an operation is admitted, what a transaction leaves behind, what the line
shows, and the invariant of the machine. -/

namespace Sys2Proof.Machine

/-- "an operation is taken from the caller whole ... at the moment FSM = Idle and BOUND = true" (R57). -/
def State.Ready (s : State) : Prop := s.bound = true ∧ s.fsm = .idle

/-- CONSTRUCT is the one operation admitted while BOUND is false (R39). -/
def isConstruct : Instr → Bool
  | .construct .. => true
  | _ => false

/-- The operands of a transaction fit their fields and the encoded request fits the packet size (R140). -/
def State.Admits (s : State) (id : Byte) (instr : WireInstr) (params : List Byte) (n : Nat) : Prop :=
  s.Ready ∧ params.length ≤ maxRequestParams s.cfg.rev ∧ n ≤ maxStatusParams s.cfg.rev ∧
    (requestFrame s.cfg.rev id instr params).length ≤ s.cfg.maxPacket

/-- The two instructions that are the transaction (id, instr, params, N) on a connection of revision `rev`: TRANSACT and the
request instruction of that revision. -/
def IsTransaction (rev : Rev) (id : Byte) (instr : WireInstr) (params : List Byte) (n : Nat) (i : Instr) : Prop :=
  i = .transact id instr params n ∨ i = Instr.request rev instr id params n

/-- What the line shows of a frame sent whole (R54). -/
def sentEvents (frame : List Byte) : List Event := [.dir .tx] ++ frame.map .tx ++ [.drained, .dir .rx]

/-- What the line shows of a frame the channel failed on after `k` bytes (R126, R128). -/
def failedEvents (frame : List Byte) (k : Nat) : List Event := [.dir .tx] ++ (frame.take k).map .tx ++ [.txFail, .dir .rx]

/-- The bytes an event took from RXQ. -/
def Event.received : Event → List Byte
  | .rxTaken b => b
  | .rxDiscarded b => b
  | .rxTimeout b => b
  | _ => []

/-- An event of the receive path. -/
def Event.isReceive : Event → Bool
  | .rxTaken _ | .rxDiscarded _ | .rxTimeout _ | .rxFail => true
  | _ => false

/-- The outcome a decode gives a transaction (R143). -/
def Decoded.outcome : Decoded → TxnOutcome
  | .frame f => .okSome f
  | .error k => .err k

/-- The state a transaction returns in: the line, the queue, the environment and the returned outcome as given, the latches
and buffers dead, FSM Idle and DIR RX, everything else as before (R144, R186). -/
def State.returned (s : State) (events : List Event) (rxq : List Byte) (env : Environment) (o : TxnOutcome) : State :=
  { s with
    dir := .rx, fsm := .idle, req := Request.dead, txbuf := [], rxbuf := [], out := none,
    trace := s.trace ++ events, rxq := rxq, env := env, ret := .outcome o }

/-- What the line is doing, as TXTRACE shows it. -/
inductive Line | listening | sending | sent
  deriving DecidableEq, Repr

/-- The order of events R54 allows: Dir(TX); Tx events; Drained or TxFail; Dir(RX); receives only while listening. -/
def Line.after : Line → Event → Option Line
  | .listening, .dir .tx => some .sending
  | .listening, .rxTaken _ => some .listening
  | .listening, .rxDiscarded _ => some .listening
  | .listening, .rxTimeout _ => some .listening
  | .listening, .rxFail => some .listening
  | .sending, .tx _ => some .sending
  | .sending, .drained => some .sent
  | .sending, .txFail => some .sent
  | .sent, .dir .rx => some .listening
  | _, _ => none

/-- The line after a trace, `none` if the trace breaks the order of R54. -/
def lineAfter (l : Line) (trace : List Event) : Option Line := trace.foldlM Line.after l

/-- The invariant of the machine, in every state between steps. -/
structure State.Inv (s : State) : Prop where
  /-- I-DIR (R37): DIR = RX in every state of the sequencer. -/
  dirRx : s.dir = .rx
  /-- Every transmission in TXTRACE is closed by Dir(RX), and no receive stands inside one (R37, R54). -/
  line : lineAfter .listening s.trace = some .listening
  /-- The multiplicity is 0, 1 or 2 (R22, R76). -/
  mult : s.cfg.mult ≠ 3
  /-- Outside a transaction the latches and buffers are dead (R28 to R30). -/
  dead : s.fsm = .idle → s.req = Request.dead ∧ s.txbuf = [] ∧ s.rxbuf = [] ∧ s.out = none
  /-- OUT is written in the transition to Done, and not before (R30). -/
  out : s.fsm = .done → s.out.isSome
  /-- While a frame is awaited OUT is empty and the latched operands fit their fields (R30, R140). -/
  waiting : s.fsm = .awaitFirst ∨ s.fsm = .awaitReply →
    s.out = none ∧ s.req.params.length ≤ maxRequestParams s.cfg.rev ∧ s.req.n ≤ maxStatusParams s.cfg.rev
  /-- TXBUF is at most CFG.MAX_PACKET long (R29). -/
  packet : s.txbuf.length ≤ s.cfg.maxPacket
  /-- A transaction runs only on a bound connection (R39). -/
  bound : s.fsm ≠ .idle → s.bound = true

end Sys2Proof.Machine
end

