-- ==== Sys2Proof/Certificates/Slice0/Obligations.lean ====
section
/-! DEFINITION. The statements for the provers. Each docstring names the rule of spec/ it formalises; where a clause rests on
a decision the spec marks as its own or on a choice of the model, the docstring says so. -/

open Sys2Proof Sys2Proof.Machine

/-! ### Integrity Check -/

/-- R110: on a V1 connection CHK8 returns the complement of the sum of the bytes modulo 256, and changes nothing but the
returned value. On a V2 connection, which "never computes a checksum" (R117), it is refused (that the stop is a refusal is the
model's reading, log 14). -/
def Obligations.Chk8IsComplementOfTruncatedSum : Prop :=
  ∀ (s : State) (b : List Byte), s.Ready →
    (s.cfg.rev = .v1 →
      exec (.chk8 b) s =
        .next { s with ret := .check (.v1 (BitVec.ofNat 8 (255 - (b.map BitVec.toNat).sum % 256))) }) ∧
    (s.cfg.rev = .v2 → exec (.chk8 b) s = .refused .wrongRevision)

/-- R112, R113 (parameters from general knowledge, D2, log 20): on a V2 connection CRC16, bit by bit, returns what the
byte-at-a-time form with the 256-entry table gives; a V1 connection "never computes a CRC" (R117; refused, log 14). -/
def Obligations.Crc16OperationMatchesTableForm : Prop :=
  crcTable.length = 256 ∧
  ∀ (s : State) (b : List Byte), s.Ready →
    (s.cfg.rev = .v2 → exec (.crc16 b) s = .next { s with ret := .check (.v2 (crc16Table b)) }) ∧
    (s.cfg.rev = .v1 → exec (.crc16 b) s = .refused .wrongRevision)

/-- R119 (b) (an inference the spec marks as its own): the CRC of the byte-wise exclusive or of two sequences of one length
is the exclusive or of their CRCs. -/
def Obligations.Crc16IsLinearOverXor : Prop :=
  ∀ a b : List Byte, a.length = b.length → crc16 (List.zipWith (· ^^^ ·) a b) = crc16 a ^^^ crc16 b

/-- R120 (an inference the spec marks as its own): replacing one byte by a different value changes both checks. -/
def Obligations.OneChangedByteChangesBothChecks : Prop :=
  ∀ (before after : List Byte) (x y : Byte), x ≠ y →
    chk8 (before ++ x :: after) ≠ chk8 (before ++ y :: after) ∧
    crc16 (before ++ x :: after) ≠ crc16 (before ++ y :: after)

/-- R116: VERIFY compares the expected value with CHK8 of the range in V1, with CRC16_OF_BODY of the body in V2. The other
revision's check is not computed (R117; refused, log 14). -/
def Obligations.VerifyRecomputesAndCompares : Prop :=
  ∀ (s : State) (range : List Byte) (expected1 : Byte) (body wbody : List Byte) (expected2 : Word), s.Ready →
    (s.cfg.rev = .v1 →
      exec (.verify (.v1 range expected1)) s = .next { s with ret := .bool (chk8 range == expected1) } ∧
      exec (.verify (.v2 body wbody expected2)) s = .refused .wrongRevision) ∧
    (s.cfg.rev = .v2 →
      exec (.verify (.v2 body wbody expected2)) s =
        .next { s with ret := .bool (crc16OfBody switches body wbody == expected2) } ∧
      exec (.verify (.v1 range expected1)) s = .refused .wrongRevision)

/-- R117: COMPUTE is CHK8 of the range in V1 and CRC16_OF_BODY in V2; the revision selects, whatever the bytes are; a V1
connection never computes a CRC and a V2 connection never computes a checksum (that the operation is then refused is the
model's reading, log 14). -/
def Obligations.ComputeFollowsTheRevision : Prop :=
  ∀ (s : State) (range body wbody : List Byte), s.Ready →
    (s.cfg.rev = .v1 →
      exec (.compute (.v1 range)) s = .next { s with ret := .check (.v1 (chk8 range)) } ∧
      exec (.compute (.v2 body wbody)) s = .refused .wrongRevision) ∧
    (s.cfg.rev = .v2 →
      exec (.compute (.v2 body wbody)) s = .next { s with ret := .check (.v2 (crc16OfBody switches body wbody)) } ∧
      exec (.compute (.v1 range)) s = .refused .wrongRevision)

/-- R114 with the normative settings (CRC_OVER_STUFFED is decision D4, log 22): on a V2 connection CRC16_OF_BODY is the CRC of
the wire body, the marker not covered; on a V1 connection no CRC is computed (R117; refused, log 14). -/
def Obligations.CrcCoversWireBodyAfterMarker : Prop :=
  ∀ (s : State) (body wbody : List Byte), s.Ready →
    (s.cfg.rev = .v2 → exec (.crc16OfBody body wbody) s = .next { s with ret := .check (.v2 (crc16 wbody)) }) ∧
    (s.cfg.rev = .v1 → exec (.crc16OfBody body wbody) s = .refused .wrongRevision)

/-- R118: CHK8, CRC16, COMPUTE and VERIFY write no state, and their value comes from their operands alone: there is one
revision and one value such that every admitted connection of that revision returns the value and changes nothing else. A
connection of the other revision refuses the operation (R117, log 14). -/
def Obligations.IntegrityOperationsArePure : Prop :=
  ∀ i : Instr, (∃ b, i = .chk8 b) ∨ (∃ b, i = .crc16 b) ∨ (∃ r, i = .compute r) ∨ (∃ v, i = .verify v) →
    ∃ (rev : Rev) (v : Returned), ∀ s : State, s.Ready →
      (s.cfg.rev = rev → exec i s = .next { s with ret := v }) ∧
      (s.cfg.rev ≠ rev → exec i s = .refused .wrongRevision)

/-! ### Frame Codec -/

/-- R90: STUFF copies the logical bytes and adds FD after each index that completes FF FF FD, looking at the logical bytes
only; the result is longer by the number of such indices. -/
def Obligations.StuffInsertsAfterEachPattern : Prop :=
  ∀ (s : State) (b : List Byte), s.Ready →
    let hit := fun i : Nat => 2 ≤ i ∧ b.getD (i - 2) 0 = 0xFF ∧ b.getD (i - 1) 0 = 0xFF ∧ b.getD i 0 = 0xFD
    exec (.stuff b) s =
      .next { s with
        ret := .bytes ((List.range b.length).flatMap fun i => b.getD i 0 :: if hit i then [0xFD] else []) } ∧
    (stuff b).length = b.length + ((List.range b.length).filter fun i => decide (hit i)).length

/-- R103: UNSTUFF undoes STUFF, UNSTUFF_TAKE too with any tail behind, and STUFF is not idempotent. -/
def Obligations.UnstuffUndoesStuff : Prop :=
  (∀ b : List Byte, unstuff (stuff b) = b) ∧
  (∀ b t : List Byte, unstuffTake (stuff b ++ t) b.length = some (b, (stuff b).length)) ∧
  stuff (stuff [0xFF, 0xFF, 0xFD]) = [0xFF, 0xFF, 0xFD, 0xFD, 0xFD]

/-- R91 (lenient on malformed stuffing, D14, log 25): UNSTUFF_TAKE returns Short exactly when the whole sequence unstuffs to fewer
than k bytes, else the first k unstuffed bytes and a number of wire bytes that unstuff to just these. -/
def Obligations.UnstuffTakeReturnsTheFirstBytes : Prop :=
  ∀ (s : State) (w : List Byte) (k : Nat), s.Ready →
    ∃ r, exec (.unstuffTake w k) s = .next { s with ret := .taken r } ∧
      (r = none ↔ (unstuff w).length < k) ∧
      ∀ logical used, r = some (logical, used) →
        logical = (unstuff w).take k ∧ used ≤ w.length ∧ unstuff (w.take used) = logical

/-- R92: the marker FF FF FD 00 stands nowhere in a stuffed body, so a receiver can tell a frame start from payload. -/
def Obligations.StuffedBodyNeverHoldsTheMarker : Prop :=
  ∀ (b before after : List Byte), stuff b ≠ before ++ v2Marker ++ after

/-- R61: the V1 request frame ENCODE_REQUEST returns on a V1 connection, P + 6 bytes, not stuffed. -/
def Obligations.V1RequestLayout : Prop :=
  ∀ (s : State) (id : Byte) (instr : WireInstr) (params : List Byte), s.Ready → s.cfg.rev = .v1 →
    params.length ≤ 253 → params.length + 6 ≤ s.cfg.maxPacket →
    let body := [id, BitVec.ofNat 8 (params.length + 2), instrCode instr] ++ params
    exec (.encodeRequestV1 id instr params) s = .next { s with ret := .bytes ([0xFF, 0xFF] ++ body ++ [chk8 body]) } ∧
    ([0xFF, 0xFF] ++ body ++ [chk8 body]).length = params.length + 6

/-- R62: the V2 request frame ENCODE_REQUEST returns on a V2 connection: marker, stuffed body with length P + 3 low byte
first, CRC low byte first; P + 10 bytes and one for each inserted byte. The range of the CRC is R114's (D4, log 22). -/
def Obligations.V2RequestLayout : Prop :=
  ∀ (s : State) (id : Byte) (instr : WireInstr) (params : List Byte), s.Ready → s.cfg.rev = .v2 → params.length ≤ 65532 →
    let body := [id, BitVec.ofNat 8 (params.length + 3), BitVec.ofNat 8 ((params.length + 3) / 256), instrCode instr] ++ params
    let crc := crc16OfBody switches body (stuff body)
    let frame := [0xFF, 0xFF, 0xFD, 0x00] ++ stuff body ++ [BitVec.ofNat 8 crc.toNat, BitVec.ofNat 8 (crc.toNat / 256)]
    frame.length ≤ s.cfg.maxPacket →
    exec (.encodeRequestV2 id instr params) s = .next { s with ret := .bytes frame } ∧
    frame.length = params.length + 10 + ((stuff body).length - body.length)

/-- R63, R64, R96, R97 (the length of a V2 status frame is decision D9, log 24; the range of its CRC D4, log 22): the status
frames ENCODE_STATUS returns on a connection of its revision. -/
def Obligations.StatusFrameLayouts : Prop :=
  ∀ (s : State) (id err : Byte) (params : List Byte), s.Ready →
    (s.cfg.rev = .v1 → params.length ≤ 253 →
      let body := [id, BitVec.ofNat 8 (params.length + 2), err] ++ params
      exec (.encodeStatusV1 id err params) s = .next { s with ret := .bytes ([0xFF, 0xFF] ++ body ++ [chk8 body]) }) ∧
    (s.cfg.rev = .v2 → params.length ≤ 65531 →
      let body := [id, BitVec.ofNat 8 (params.length + 4), BitVec.ofNat 8 ((params.length + 4) / 256), 0x55, err] ++ params
      let crc := crc16OfBody switches body (stuff body)
      exec (.encodeStatusV2 id err params) s =
        .next { s with ret := .bytes ([0xFF, 0xFF, 0xFD, 0x00] ++ stuff body ++
                                        [BitVec.ofNat 8 crc.toNat, BitVec.ofNat 8 (crc.toNat / 256)]) })

/-- R77, R94, R95, R12 (refusing is decision D24, log 11): on a connection of its revision an encoder refuses parameters that
overflow the length field (that ENCODE_STATUS names it LengthFieldOverflow is the model's reading, log 34), a request encoder
one whose frame is longer than MAX_PACKET; the status rows refuse parameters no frame can hold (log 16), and WRITE_FRAME more
bytes than MAX_PACKET (log 13). On a connection of the other revision every encoder and decoder is refused (R9, R117, log 14). -/
def Obligations.WhatDoesNotFitIsRefused : Prop :=
  ∀ (s : State) (id err b : Byte) (instr : WireInstr) (params bytes : List Byte) (c1 : Byte) (c2 : Word) (n : Nat), s.Ready →
    (s.cfg.rev = .v1 → 253 < params.length → exec (.encodeRequestV1 id instr params) s = .refused .lengthFieldOverflow ∧
      exec (.encodeStatusV1 id err params) s = .refused .lengthFieldOverflow) ∧
    (253 < params.length → exec (.v1Status id err params c1 n) s = .refused .lengthFieldOverflow) ∧
    (s.cfg.rev = .v2 → 65532 < params.length → exec (.encodeRequestV2 id instr params) s = .refused .lengthFieldOverflow) ∧
    (s.cfg.rev = .v2 → 65531 < params.length → exec (.encodeStatusV2 id err params) s = .refused .lengthFieldOverflow) ∧
    (65531 < params.length → exec (.v2Status id b err params c2 n) s = .refused .lengthFieldOverflow) ∧
    (s.cfg.rev = .v1 → params.length ≤ 253 → s.cfg.maxPacket < params.length + 6 →
      exec (.encodeRequestV1 id instr params) s = .refused .packetTooLong) ∧
    (s.cfg.rev = .v2 → params.length ≤ 65532 → s.cfg.maxPacket < (requestFrame .v2 id instr params).length →
      exec (.encodeRequestV2 id instr params) s = .refused .packetTooLong) ∧
    (s.cfg.maxPacket < bytes.length → exec (.writeFrame bytes) s = .refused .packetTooLong) ∧
    (s.cfg.rev ≠ .v1 → exec (.encodeRequestV1 id instr params) s = .refused .wrongRevision ∧
      exec (.encodeStatusV1 id err params) s = .refused .wrongRevision ∧
      exec (.decodeStatusV1 n bytes) s = .refused .wrongRevision) ∧
    (s.cfg.rev ≠ .v2 → exec (.encodeRequestV2 id instr params) s = .refused .wrongRevision ∧
      exec (.encodeStatusV2 id err params) s = .refused .wrongRevision ∧
      exec (.decodeStatusV2 n bytes) s = .refused .wrongRevision)

/-- R102: decoding an encoded status frame gives it back, in both revisions, for every setting of CRC_RANGE, CRC_OVER_STUFFED,
the CRC parameters and CHECK_STATUS_INSTR, with stuffing or without. -/
def Obligations.StatusFrameRoundTrip : Prop :=
  (∀ (id err : Byte) (params : List Byte), params.length ≤ 253 →
    decodeStatusV1 params.length (statusFrame .v1 id err params) =
      .frame { id := id, instr := none, err := err, params := params,
               check := .v1 (chk8 (statusBody .v1 id err params)) }) ∧
  (∀ (w : Switches) (id err : Byte) (params : List Byte), params.length ≤ 65531 →
    decodeStatusV2With w params.length (statusFrameWith w .v2 id err params) =
      .frame { id := id, instr := some 0x55, err := err, params := params,
               check := .v2 (crc16OfBody w (statusBody .v2 id err params) (stuff (statusBody .v2 id err params))) })

/-- R104: the check value at the end of an encoded request or status frame satisfies VERIFY over the bytes between the marker
and it. -/
def Obligations.EncodedFramesVerify : Prop :=
  (∀ body : List Byte,
    let frame := v1Frame body
    verify switches (.v1 (slice frame 2 (frame.length - 1)) (byteAt frame (frame.length - 1)))) ∧
  (∀ (w : Switches) (body : List Byte),
    let frame := v2Frame w body
    verify w (.v2 body (slice frame 4 (frame.length - 2))
      (fromLe16 (byteAt frame (frame.length - 2)) (byteAt frame (frame.length - 1))))) ∧
  (∀ (id : Byte) (instr : WireInstr) (params : List Byte),
    requestFrame .v1 id instr params = v1Frame (requestBody .v1 id instr params) ∧
    requestFrame .v2 id instr params = v2Frame switches (requestBody .v2 id instr params)) ∧
  (∀ (id err : Byte) (params : List Byte),
    statusFrame .v1 id err params = v1Frame (statusBody .v1 id err params) ∧
    statusFrame .v2 id err params = v2Frame switches (statusBody .v2 id err params))

/-- R98 (check order and offset 0 are decisions D12 and D13, log 25): the V1 decoder answers a frame exactly for the bytes of
the layout R63 with the right checksum, whatever follows them. -/
def Obligations.V1DecoderAcceptsExactlyTheLayout : Prop :=
  ∀ (n : Nat) (b : List Byte) (f : StatusFrame),
    decodeStatusV1 n b = .frame f ↔
      f.params.length = n ∧ n ≤ 253 ∧ f.instr = none ∧ f.check = .v1 (chk8 (statusBody .v1 f.id f.err f.params)) ∧
      ∃ t, b = statusFrame .v1 f.id f.err f.params ++ t

/-- R98 to R100: DECODE_STATUS of the connection's revision returns for any bytes, a frame with N parameters or one of four
error kinds, and changes nothing else. -/
def Obligations.DecoderReturnsFrameOrFourErrors : Prop :=
  ∀ (s : State) (n : Nat) (b : List Byte), s.Ready →
    ∃ d, (s.cfg.rev = .v1 → exec (.decodeStatusV1 n b) s = .next { s with ret := .decoded d }) ∧
      (s.cfg.rev = .v2 → exec (.decodeStatusV2 n b) s = .next { s with ret := .decoded d }) ∧
      ((∃ f, d = .frame f ∧ f.params.length = n) ∨ d = .error .frameTooShort ∨ d = .error .badMarker ∨
        d = .error .lengthMismatch ∨ d = .error .integrityMismatch)

/-- R98, R99 (decision D13, log 25): bytes behind the frame change nothing. -/
def Obligations.DecoderIgnoresBytesBehindTheFrame : Prop :=
  ∀ (rev : Rev) (n : Nat) (b t : List Byte) (f : StatusFrame),
    decodeStatus rev n b = .frame f → decodeStatus rev n (b ++ t) = .frame f

/-- The row V1.STATUS on a V1 connection (R63, R98; that the row is a decode is the model's reading, log 16): another N is
LengthMismatch, a wrong checksum IntegrityMismatch, else the frame, its error byte whatever it is (R182). The order of the two
errors is D12 (log 25). -/
def Obligations.V1StatusFrameIsDecoded : Prop :=
  ∀ (s : State) (id err check : Byte) (params : List Byte) (n : Nat), s.Ready → s.cfg.rev = .v1 → params.length ≤ 253 →
    exec (.v1Status id err params check n) s =
      .next { s with
        ret := .decoded
          (if n ≠ params.length then .error .lengthMismatch
           else if check ≠ chk8 (statusBody .v1 id err params) then .error .integrityMismatch
           else .frame { id := id, instr := none, err := err, params := params, check := .v1 check }) }

/-- The row V2.STATUS on a V2 connection (R64, R99; log 16; the instruction byte is not compared, D10, log 23). The order of
the two errors is D12 (log 25), the length and the CRC's range D9 and D4 (log 24, log 22). -/
def Obligations.V2StatusFrameIsDecoded : Prop :=
  ∀ (s : State) (id instr err : Byte) (params : List Byte) (check : Word) (n : Nat), s.Ready → s.cfg.rev = .v2 →
    params.length ≤ 65531 →
    let body := [id, BitVec.ofNat 8 (params.length + 4), BitVec.ofNat 8 ((params.length + 4) / 256), instr, err] ++ params
    exec (.v2Status id instr err params check n) s =
      .next { s with
        ret := .decoded
          (if n ≠ params.length then .error .lengthMismatch
           else if check ≠ crc16OfBody switches body (stuff body) then .error .integrityMismatch
           else .frame { id := id, instr := some instr, err := err, params := params, check := .v2 check }) }

/-- R206 (an inference the spec marks as its own): a status frame of the other revision never decodes: a V2 connection reports
BadMarker (FrameTooShort for the 6-byte frame, shorter than a V2 header), a V1 connection LengthMismatch. The order of the
decoder's checks is D12 and D13 (log 25), the reading of the rows log 16. -/
def Obligations.OtherRevisionNeverDecodes : Prop :=
  ∀ (s : State) (id instr err : Byte) (params : List Byte) (check1 : Byte) (check2 : Word) (n : Nat), s.Ready →
    (s.cfg.rev = .v2 → params.length ≤ 253 →
      exec (.v1Status id err params check1 n) s =
        .next { s with ret := .decoded (.error (if params = [] then .frameTooShort else .badMarker)) }) ∧
    (s.cfg.rev = .v1 → params.length ≤ 65531 →
      exec (.v2Status id instr err params check2 n) s = .next { s with ret := .decoded (.error .lengthMismatch) })

/-! ### Connection -/

/-- R200, R38 (DIR and FSM after it are decision D19, log 28; what the channel holds is the environment's, log 7; that the
latches, TXBUF, RXBUF and OUT, which R38 leaves without a value, hold the dead ones is the model's choice, log 2): an admitted
CONSTRUCT writes the configuration, binds, and sends and reads nothing. -/
def Obligations.ConstructBindsTheConnection : Prop :=
  ∀ (s : State) (ch dl : Handle) (rev : Rev) (mult : BitVec 2) (echo : Nat) (tmo : TimeoutToken) (maxp : Nat),
    s.bound = false → mult ≠ 3 →
    exec (.construct ch dl rev mult echo tmo maxp) s =
      .next { s with
        bound := true, cfg := { rev := rev, mult := mult, echoLen := echo, timeout := tmo, maxPacket := maxp },
        dir := .rx, fsm := .idle, req := Request.dead, txbuf := [], rxbuf := [], out := none, trace := [],
        rxq := s.env.bind.headD s.rxq, env := { s.env with bind := s.env.bind.tail }, ret := .unit }

/-- R76: multiplicity 3 is not a legal configuration, and CONSTRUCT refuses it. (A bound PPE refuses any CONSTRUCT as Busy
first, R200.) -/
def Obligations.ConstructRefusesMultiplicityThree : Prop :=
  ∀ (s : State) (ch dl : Handle) (rev : Rev) (mult : BitVec 2) (echo : Nat) (tmo : TimeoutToken) (maxp : Nat),
    (s.bound = true → exec (.construct ch dl rev mult echo tmo maxp) s = .refused .busy) ∧
    (s.bound = false → mult = 3 → exec (.construct ch dl rev mult echo tmo maxp) s = .refused .badConfiguration)

/-- R202 (decision D27, log 30): an admitted TEARDOWN clears BOUND and nothing else. -/
def Obligations.TeardownOnlyUnbinds : Prop :=
  ∀ s : State, s.Ready → exec .teardown s = .next { s with bound := false, ret := .unit }

/-- R39: BOUND is false before any CONSTRUCT; while it is false no operation other than CONSTRUCT is admitted; it is true from
CONSTRUCT until TEARDOWN. -/
def Obligations.OnlyConstructRunsUnbound : Prop :=
  State.reset.bound = false ∧
  (∀ (i : Instr) (s : State), s.bound = false → isConstruct i = false → exec i s = .refused .notBound) ∧
  (∀ (i : Instr) (s t : State), exec i s = .next t →
    t.bound = if isConstruct i then true else if i = .teardown then false else s.bound)

/-- R140, R153, R200, R202, R183, R57: while a transaction runs every operation is refused as Busy. The spec states it for
TRANSACT, CONSTRUCT and TEARDOWN; that the codec, integrity and transport operations pass the same test is the model's reading
of R183 and R57 (log 12). -/
def Obligations.RunningTransactionRefusesEveryOperation : Prop :=
  ∀ (i : Instr) (s : State), s.bound = true → s.fsm ≠ .idle → exec i s = .refused .busy

/-- R201: no operation but CONSTRUCT changes the configuration, and CONSTRUCT runs only after a teardown. -/
def Obligations.OnlyConstructWritesTheConfiguration : Prop :=
  ∀ (i : Instr) (s t : State), exec i s = .next t →
    (isConstruct i = false → t.cfg = s.cfg) ∧ (isConstruct i = true → s.bound = false)

/-! ### Transport Adapter -/

/-- R126: WRITE_FRAME asserts TX, sends every byte in offset order, drains, and returns to RX; on a channel fault after some
prefix there is no drain (D23, log 29), DIR still returns to RX, and TransportFailure is raised. Bytes that arrive meanwhile
stay in RXQ; after a fault RXQ is what the environment says (U5, log 5). The operation is TRANSACT's alone (R125) and `step`
refuses it from the host; that `exec` gives it a meaning on an idle connection, the empty frame R126 excludes among its
operands, is the model's choice (log 13). -/
def Obligations.WriteFrameAlwaysReleasesTheLine : Prop :=
  ∀ (s : State) (bytes : List Byte), s.Ready → bytes.length ≤ s.cfg.maxPacket →
    (s.env.nextTx.fault = none →
      exec (.writeFrame bytes) s =
        .next { s with
          dir := .rx, trace := s.trace ++ sentEvents bytes, rxq := s.rxq ++ s.env.nextTx.arrivals,
          env := { s.env with tx := s.env.tx.tail }, ret := .unit }) ∧
    (∀ f, s.env.nextTx.fault = some f →
      exec (.writeFrame bytes) s =
        .next { s with
          dir := .rx, trace := s.trace ++ failedEvents bytes f.sent, rxq := f.rxqAfter,
          env := { s.env with tx := s.env.tx.tail }, ret := .raised .transportFailure })

/-- R129 (bytes of a receive that times out are consumed, D17, log 6; RXQ after a fault is any, U5, log 5): READ_EXACT of no
bytes returns at once; else exactly n bytes, or Timeout, or TransportFailure. The operation is TRANSACT's alone (R125) and
`step` refuses it from the host; that `exec` gives it a meaning on an idle connection is the model's choice (log 13). -/
def Obligations.ReadExactReturnsExactlyOrFails : Prop :=
  ∀ (s : State) (n : Nat), s.Ready →
    let q := s.rxq ++ s.env.nextRx.arrivals
    let env := { s.env with rx := s.env.rx.tail }
    (n = 0 → exec (.readExact n) s = .next { s with ret := .bytes [] }) ∧
    (n ≠ 0 → s.env.nextRx.fault = none → n ≤ q.length →
      exec (.readExact n) s =
        .next { s with env := env, rxq := q.drop n, trace := s.trace ++ [.rxTaken (q.take n)], ret := .bytes (q.take n) }) ∧
    (n ≠ 0 → s.env.nextRx.fault = none → q.length < n →
      exec (.readExact n) s =
        .next { s with env := env, rxq := [], trace := s.trace ++ [.rxTimeout q], ret := .raised .timeout }) ∧
    (∀ after, n ≠ 0 → s.env.nextRx.fault = some after →
      exec (.readExact n) s =
        .next { s with env := env, rxq := after, trace := s.trace ++ [.rxFail], ret := .raised .transportFailure })

/-- R130: every receive ends, and with at least n bytes in RXQ when it starts it ends in the bytes or in a channel fault,
never in Timeout. Stated of READ_EXACT on an idle connection, where `exec` gives it a meaning although only TRANSACT issues it
(R125; the model's choice, log 13). -/
def Obligations.EnoughPendingBytesNeverTimeOut : Prop :=
  ∀ (s : State) (n : Nat), s.Ready →
    ∃ t, exec (.readExact n) s = .next t ∧
      ((∃ b, t.ret = .bytes b ∧ b.length = n) ∨ t.ret = .raised .timeout ∨ t.ret = .raised .transportFailure) ∧
      (n ≤ s.rxq.length → t.ret ≠ .raised .timeout) ∧
      (n ≤ s.rxq.length → s.env.nextRx.fault = none → t.ret = .bytes (s.rxq.take n))

/-! ### Transaction Engine -/

/-- R140, R144, R153: an admitted transaction, issued as TRANSACT or as the request instruction of the connection's revision,
runs to its return whatever the environment answers: an outcome is returned, FSM is Idle, DIR is RX, the latches are dead, and
only the line, RXQ and the environment have moved. What dead latches hold is the model's choice (log 2). -/
def Obligations.EveryAdmittedTransactionReturns : Prop :=
  ∀ (s : State) (id : Byte) (instr : WireInstr) (params : List Byte) (n : Nat) (i : Instr),
    s.Admits id instr params n → IsTransaction s.cfg.rev id instr params n i →
    ∃ events rxq env o, exec i s = .next (s.returned events rxq env o) ∧ env.bind = s.env.bind ∧ env.between = s.env.between

/-- R152: one request frame is sent per admitted transaction (whole, or a prefix if the channel fails), then at most two
receives are made, none after a failed send; at most ECHO_LEN + STATUS_WIRE_LEN bytes are consumed; and nothing is flushed:
without a channel fault the bytes taken and the bytes left are the pending and arrived bytes, in order. Bytes of a receive
that times out count as taken (D17, log 6). -/
def Obligations.OneRequestFrameAndNoRetries : Prop :=
  ∀ (s t : State) (id : Byte) (instr : WireInstr) (params : List Byte) (n : Nat) (i : Instr),
    s.Admits id instr params n → IsTransaction s.cfg.rev id instr params n i → exec i s = .next t →
    let frame := requestFrame s.cfg.rev id instr params
    (∃ f, s.env.nextTx.fault = some f ∧ t.trace = s.trace ++ failedEvents frame f.sent) ∨
    (∃ rx, t.trace = s.trace ++ sentEvents frame ++ rx ∧ rx.length ≤ 2 ∧ (∀ e ∈ rx, e.isReceive) ∧
      (rx.flatMap Event.received).length ≤ s.cfg.echoLen + statusWireLen s.cfg.rev n ∧
      (Event.rxFail ∉ rx → ∃ arrived,
        s.rxq ++ s.env.nextTx.arrivals ++ arrived = rx.flatMap Event.received ++ t.rxq))

/-- R145, multiplicity 0: no receive is made and the outcome is Ok(None). What dead latches hold is the model's choice (log
2). -/
def Obligations.MultiplicityZeroReadsNothing : Prop :=
  ∀ (s : State) (id : Byte) (instr : WireInstr) (params : List Byte) (n : Nat) (i : Instr),
    s.Admits id instr params n → IsTransaction s.cfg.rev id instr params n i →
    s.cfg.mult = 0 → s.env.nextTx.fault = none →
    exec i s =
      .next (s.returned (sentEvents (requestFrame s.cfg.rev id instr params)) (s.rxq ++ s.env.nextTx.arrivals)
        { s.env with tx := s.env.tx.tail } .okNone)

/-- R143, R145, multiplicity 1: one receive of STATUS_WIRE_LEN(REV, N) bytes, decoded; a decode error is the outcome's error.
What dead latches hold is the model's choice (log 2). -/
def Obligations.MultiplicityOneDecodesOneReceive : Prop :=
  ∀ (s : State) (id : Byte) (instr : WireInstr) (params : List Byte) (n : Nat) (i : Instr),
    s.Admits id instr params n → IsTransaction s.cfg.rev id instr params n i →
    s.cfg.mult = 1 → s.env.nextTx.fault = none → s.env.nextRx.fault = none →
    let q := s.rxq ++ s.env.nextTx.arrivals ++ s.env.nextRx.arrivals
    let m := statusWireLen s.cfg.rev n
    m ≤ q.length →
    exec i s =
      .next (s.returned (sentEvents (requestFrame s.cfg.rev id instr params) ++ [.rxTaken (q.take m)]) (q.drop m)
        { s.env with tx := s.env.tx.tail, rx := s.env.rx.tail } (decodeStatus s.cfg.rev n (q.take m)).outcome)

/-- R142, R143, R145, multiplicity 2: ECHO_LEN bytes are discarded, whatever they are, then the status frame is received and
decoded. With ECHO_LEN = 0 the discard waits for nothing and takes nothing (R129). What dead latches hold is the model's
choice (log 2). -/
def Obligations.MultiplicityTwoDiscardsTheEcho : Prop :=
  ∀ (s : State) (id : Byte) (instr : WireInstr) (params : List Byte) (n : Nat) (i : Instr),
    s.Admits id instr params n → IsTransaction s.cfg.rev id instr params n i →
    s.cfg.mult = 2 → s.env.nextTx.fault = none → s.env.nextRx.fault = none →
    let k := s.cfg.echoLen
    let m := statusWireLen s.cfg.rev n
    let sent := sentEvents (requestFrame s.cfg.rev id instr params)
    let q1 := s.rxq ++ s.env.nextTx.arrivals ++ s.env.nextRx.arrivals
    (k ≠ 0 → ∀ b : RxAnswer, b = { s.env with rx := s.env.rx.tail }.nextRx → b.fault = none →
      let q2 := q1.drop k ++ b.arrivals
      k ≤ q1.length → m ≤ q2.length →
      exec i s =
        .next (s.returned (sent ++ [.rxDiscarded (q1.take k), .rxTaken (q2.take m)]) (q2.drop m)
          { s.env with tx := s.env.tx.tail, rx := s.env.rx.tail.tail } (decodeStatus s.cfg.rev n (q2.take m)).outcome)) ∧
    (k = 0 → m ≤ q1.length →
      exec i s =
        .next (s.returned (sent ++ [.rxTaken (q1.take m)]) (q1.drop m)
          { s.env with tx := s.env.tx.tail, rx := s.env.rx.tail } (decodeStatus s.cfg.rev n (q1.take m)).outcome))

/-- R141, R128 (decision D23, log 29): a channel fault while sending ends the transaction with TransportFailure; nothing is
received, whatever the multiplicity. What dead latches hold is the model's choice (log 2). -/
def Obligations.SendFaultEndsTheTransaction : Prop :=
  ∀ (s : State) (id : Byte) (instr : WireInstr) (params : List Byte) (n : Nat) (i : Instr) (f : TxFault),
    s.Admits id instr params n → IsTransaction s.cfg.rev id instr params n i → s.env.nextTx.fault = some f →
    exec i s =
      .next (s.returned (failedEvents (requestFrame s.cfg.rev id instr params) f.sent) f.rxqAfter
        { s.env with tx := s.env.tx.tail } (.err .transportFailure))

/-- R142, R147 (decision D20, log 29): a Timeout or TransportFailure of the echo discard ends the transaction with that error,
and no status receive is made. The bytes of the timed-out discard are consumed (R132, D17, log 6). What dead latches hold is
the model's choice (log 2). -/
def Obligations.EchoReceiveErrorEndsTheTransaction : Prop :=
  ∀ (s : State) (id : Byte) (instr : WireInstr) (params : List Byte) (n : Nat) (i : Instr),
    s.Admits id instr params n → IsTransaction s.cfg.rev id instr params n i →
    s.cfg.mult = 2 → s.env.nextTx.fault = none → s.cfg.echoLen ≠ 0 →
    let sent := sentEvents (requestFrame s.cfg.rev id instr params)
    let q := s.rxq ++ s.env.nextTx.arrivals ++ s.env.nextRx.arrivals
    let env := { s.env with tx := s.env.tx.tail, rx := s.env.rx.tail }
    (s.env.nextRx.fault = none → q.length < s.cfg.echoLen →
      exec i s = .next (s.returned (sent ++ [.rxTimeout q]) [] env (.err .timeout))) ∧
    (∀ after, s.env.nextRx.fault = some after →
      exec i s = .next (s.returned (sent ++ [.rxFail]) after env (.err .transportFailure)))

/-- R143, R176, R181, R186: a Timeout or TransportFailure of the status receive is the outcome; the request stays sent and
nothing more is received. Multiplicity 1. The bytes of the timed-out receive are consumed (R132, D17, log 6). What dead
latches hold is the model's choice (log 2). -/
def Obligations.ReplyReceiveErrorIsTheOutcome : Prop :=
  ∀ (s : State) (id : Byte) (instr : WireInstr) (params : List Byte) (n : Nat) (i : Instr),
    s.Admits id instr params n → IsTransaction s.cfg.rev id instr params n i →
    s.cfg.mult = 1 → s.env.nextTx.fault = none →
    let sent := sentEvents (requestFrame s.cfg.rev id instr params)
    let q := s.rxq ++ s.env.nextTx.arrivals ++ s.env.nextRx.arrivals
    let env := { s.env with tx := s.env.tx.tail, rx := s.env.rx.tail }
    (s.env.nextRx.fault = none → q.length < statusWireLen s.cfg.rev n →
      exec i s = .next (s.returned (sent ++ [.rxTimeout q]) [] env (.err .timeout))) ∧
    (∀ after, s.env.nextRx.fault = some after →
      exec i s = .next (s.returned (sent ++ [.rxFail]) after env (.err .transportFailure)))

/-- R143, R176, R181, R186, multiplicity 2: after the discard of ECHO_LEN bytes, which with ECHO_LEN = 0 takes nothing and
waits for nothing (R129), a Timeout or TransportFailure of the status receive is the outcome. The bytes of the timed-out
receive are consumed (R132, D17, log 6). What dead latches hold is the model's choice (log 2). -/
def Obligations.ReplyReceiveErrorAfterTheEcho : Prop :=
  ∀ (s : State) (id : Byte) (instr : WireInstr) (params : List Byte) (n : Nat) (i : Instr),
    s.Admits id instr params n → IsTransaction s.cfg.rev id instr params n i →
    s.cfg.mult = 2 → s.env.nextTx.fault = none →
    let k := s.cfg.echoLen
    let q1 := s.rxq ++ s.env.nextTx.arrivals ++ s.env.nextRx.arrivals
    let sent := sentEvents (requestFrame s.cfg.rev id instr params)
    (k ≠ 0 → s.env.nextRx.fault = none → k ≤ q1.length → ∀ b : RxAnswer, b = { s.env with rx := s.env.rx.tail }.nextRx →
      let q2 := q1.drop k ++ b.arrivals
      let echo := .rxDiscarded (q1.take k)
      let env := { s.env with tx := s.env.tx.tail, rx := s.env.rx.tail.tail }
      (b.fault = none → q2.length < statusWireLen s.cfg.rev n →
        exec i s = .next (s.returned (sent ++ [echo, .rxTimeout q2]) [] env (.err .timeout))) ∧
      (∀ after, b.fault = some after →
        exec i s = .next (s.returned (sent ++ [echo, .rxFail]) after env (.err .transportFailure)))) ∧
    (k = 0 →
      let env := { s.env with tx := s.env.tx.tail, rx := s.env.rx.tail }
      (s.env.nextRx.fault = none → q1.length < statusWireLen s.cfg.rev n →
        exec i s = .next (s.returned (sent ++ [.rxTimeout q1]) [] env (.err .timeout))) ∧
      (∀ after, s.env.nextRx.fault = some after →
        exec i s = .next (s.returned (sent ++ [.rxFail]) after env (.err .transportFailure))))

/-- R148 (decision D22, log 29): Ok(None) comes only of multiplicity 0, which gives it unless sending fails; silence at
multiplicity 1 or 2 is never Ok(None). -/
def Obligations.NoneOnlyWithMultiplicityZero : Prop :=
  ∀ (s t : State) (id : Byte) (instr : WireInstr) (params : List Byte) (n : Nat) (i : Instr),
    s.Admits id instr params n → IsTransaction s.cfg.rev id instr params n i → exec i s = .next t →
    (t.ret = .outcome .okNone → s.cfg.mult = 0) ∧
    (s.cfg.mult = 0 → t.ret = .outcome .okNone ∨ t.ret = .outcome (.err .transportFailure))

/-- R154 (an inference the spec marks as its own; the V2 layout rests on D4 and D9, log 22 and log 24): at multiplicity 2,
whatever ECHO_LEN bytes stand before an unstuffed status frame, the frame is returned and RXQ is empty. -/
def Obligations.JunkBeforeTheReplyIsDropped : Prop :=
  ∀ (s : State) (id rid err : Byte) (instr : WireInstr) (params reply junk : List Byte) (i : Instr),
    s.Admits id instr params reply.length → IsTransaction s.cfg.rev id instr params reply.length i →
    s.cfg.mult = 2 → s.env = Environment.unplanned → junk.length = s.cfg.echoLen →
    s.rxq = junk ++ statusFrame s.cfg.rev rid err reply →
    (s.cfg.rev = .v2 → stuff (statusBody .v2 rid err reply) = statusBody .v2 rid err reply) →
    ∃ (t : State) (f : StatusFrame), exec i s = .next t ∧ t.ret = .outcome (.okSome f) ∧
      f.id = rid ∧ f.err = err ∧ f.params = reply ∧ t.rxq = []

/-- R209 (an inference the spec marks as its own; decision D35): on a V2 connection a reply with stuffing in it always fails:
the fixed-size receive stops short of its end, the outcome is FrameTooShort, and the missing bytes stay in RXQ. It rests on
the V2 layout's D8 and D9 (log 24). -/
def Obligations.StuffedReplyIsTooShort : Prop :=
  ∀ (s : State) (id rid err : Byte) (instr : WireInstr) (params reply : List Byte) (i : Instr),
    s.Admits id instr params reply.length → IsTransaction s.cfg.rev id instr params reply.length i →
    s.cfg.rev = .v2 → s.cfg.mult = 1 → s.env = Environment.unplanned → reply.length ≤ 65531 →
    s.rxq = statusFrame .v2 rid err reply →
    stuff (statusBody .v2 rid err reply) ≠ statusBody .v2 rid err reply →
    ∃ t, exec i s = .next t ∧ t.ret = .outcome (.err .frameTooShort) ∧
      t.rxq = (statusFrame .v2 rid err reply).drop (reply.length + 11) ∧ t.rxq ≠ []

/-- R149, R100 (decisions D11 and D21, log 23 and log 29): the engine looks at no identifier: two admitted transactions that
differ only in the id, the broadcast id among them, return the same outcome and leave the same RXQ. -/
def Obligations.OutcomeDoesNotDependOnTheId : Prop :=
  ∀ (s t u : State) (id id' : Byte) (instr : WireInstr) (params : List Byte) (n : Nat),
    exec (.transact id instr params n) s = .next t → exec (.transact id' instr params n) s = .next u →
    t.ret = u.ret ∧ t.rxq = u.rxq ∧ t.env = u.env

/-- R36: nothing computed before is visible to a transaction: whatever the latches, the buffers and the last returned value
hold, it runs to the same next state. -/
def Obligations.NothingPersistsIntoATransaction : Prop :=
  ∀ (s : State) (req : Request) (txbuf rxbuf : List Byte) (out : Option TxnOutcome) (ret : Returned)
    (id : Byte) (instr : WireInstr) (params : List Byte) (n : Nat) (i : Instr),
    IsTransaction s.cfg.rev id instr params n i →
    exec i { s with req := req, txbuf := txbuf, rxbuf := rxbuf, out := out, ret := ret } = exec i s

/-- R27, R141 to R144: a transaction is the walk of the sequencer: from the end of state Idle (the frame sent) at most three
steps of the machine reach the state the instruction ends in. That exec runs the whole walk in one step is log 10. -/
def Obligations.TransactionIsTheWalkOfTheSequencer : Prop :=
  ∀ (s t : State) (id : Byte) (instr : WireInstr) (params : List Byte) (n : Nat),
    exec (.transact id instr params n) s = .next t →
    ∃ k, k ≤ 3 ∧
      Host.Core.run Sys2Proof.core k
        ((s.accept { id := id, instr := instr, params := params, n := n }
            (requestFrame s.cfg.rev id instr params)).sendRequest) = .next t

/-! ### Register Access Facade and admission -/

/-- R82, R73 (the order of the two bytes in V2 is decision D15, log 26; N = 0 for WRITE is D16, log 27): PING, READ and WRITE
are each exactly one TRANSACT, with the parameter bytes of R73. -/
def Obligations.FacadeOperationsAreOneTransact : Prop :=
  ∀ (s : State) (id : Byte), s.Ready →
    exec (.ping id) s = exec (.transact id .ping [] 0) s ∧
    (∀ address length, s.cfg.rev = .v1 → address ≤ 0xFF → length ≤ 253 →
      exec (.read id address length) s =
        exec (.transact id .read [BitVec.ofNat 8 address, BitVec.ofNat 8 length] length) s) ∧
    (∀ address length, s.cfg.rev = .v2 → address ≤ 0xFFFF → length ≤ 65531 →
      exec (.read id address length) s =
        exec (.transact id .read [BitVec.ofNat 8 address, BitVec.ofNat 8 (address / 256),
                                  BitVec.ofNat 8 length, BitVec.ofNat 8 (length / 256)] length) s) ∧
    (∀ address data, s.cfg.rev = .v1 → address ≤ 0xFF → data.length ≤ 252 →
      exec (.write id address data) s = exec (.transact id .write (BitVec.ofNat 8 address :: data) 0) s) ∧
    (∀ address data, s.cfg.rev = .v2 → address ≤ 0xFFFF → data.length ≤ 65530 →
      exec (.write id address data) s =
        exec (.transact id .write ([BitVec.ofNat 8 address, BitVec.ofNat 8 (address / 256)] ++ data) 0) s)

/-- R160 to R163: PING, READ and WRITE return an outcome whatever the environment answers, when their operands are in range
and their request fits the packet size; nothing but the line, RXQ and the environment has moved. What dead latches hold is the
model's choice (log 2). -/
def Obligations.FacadeOperationsReturn : Prop :=
  ∀ (s : State) (id : Byte), s.Ready →
    ((requestFrame s.cfg.rev id .ping []).length ≤ s.cfg.maxPacket →
      ∃ events rxq env o, exec (.ping id) s = .next (s.returned events rxq env o)) ∧
    (∀ address length, address ≤ maxAddress s.cfg.rev → length ≤ maxStatusParams s.cfg.rev →
      (requestFrame s.cfg.rev id .read (readParams s.cfg.rev address length)).length ≤ s.cfg.maxPacket →
      ∃ events rxq env o, exec (.read id address length) s = .next (s.returned events rxq env o)) ∧
    (∀ address data, address ≤ maxAddress s.cfg.rev → data.length ≤ maxWriteData s.cfg.rev →
      (requestFrame s.cfg.rev id .write (writeParams s.cfg.rev address data)).length ≤ s.cfg.maxPacket →
      ∃ events rxq env o, exec (.write id address data) s = .next (s.returned events rxq env o))

/-- R161, R162, R77 (refusing is decision D24, log 11): READ and WRITE refuse operands outside the revision's range. -/
def Obligations.FacadeRefusesOperandsOutOfRange : Prop :=
  ∀ (s : State) (id : Byte) (address : Nat), s.Ready →
    (∀ length, maxAddress s.cfg.rev < address ∨ maxStatusParams s.cfg.rev < length →
      exec (.read id address length) s = .refused .operandOutOfRange) ∧
    (∀ data, maxAddress s.cfg.rev < address ∨ maxWriteData s.cfg.rev < data.length →
      exec (.write id address data) s = .refused .operandOutOfRange)

/-- R140 (refusing is decision D24, log 11): TRANSACT's admission in its order: NotBound, Busy, LengthFieldOverflow,
PacketTooLong; what passes all four runs. -/
def Obligations.TransactAdmissionOrder : Prop :=
  ∀ (s : State) (id : Byte) (instr : WireInstr) (params : List Byte) (n : Nat),
    let fits := params.length ≤ maxRequestParams s.cfg.rev ∧ n ≤ maxStatusParams s.cfg.rev
    let short := (requestFrame s.cfg.rev id instr params).length ≤ s.cfg.maxPacket
    (s.bound = false → exec (.transact id instr params n) s = .refused .notBound) ∧
    (s.bound = true → s.fsm ≠ .idle → exec (.transact id instr params n) s = .refused .busy) ∧
    (s.Ready → ¬ fits → exec (.transact id instr params n) s = .refused .lengthFieldOverflow) ∧
    (s.Ready → fits → ¬ short → exec (.transact id instr params n) s = .refused .packetTooLong)

/-- R9 (that a request row of the other revision is refused is the model's reading, log 15): a request instruction runs only
on a connection of its revision. -/
def Obligations.RequestsRunOnlyInTheirRevision : Prop :=
  ∀ (s : State) (rev : Rev) (instr : WireInstr) (id : Byte) (params : List Byte) (n : Nat), s.Ready →
    (s.cfg.rev ≠ rev → exec (Instr.request rev instr id params n) s = .refused .wrongRevision) ∧
    (s.cfg.rev = rev → exec (Instr.request rev instr id params n) s = exec (.transact id instr params n) s)

/-! ### Encoding, step, invariant -/

/-- R69: INSTR_CODE maps the sixteen instructions to sixteen different bytes (fourteen from general knowledge, D1, log 19). -/
def Obligations.InstructionCodesAreDistinct : Prop :=
  (∀ a b : WireInstr, instrCode a = instrCode b → a = b) ∧ instrCode .read = 0x02 ∧ instrCode .statusReturn = 0x55

/-- R61 to R64 (reading a request back is the model's, log 17; the status rows, log 16): for every well-formed instruction
that is a frame, the decoder gives it back from its bytes, with whatever bytes follow left over. -/
def Obligations.DecodeInvertsEncode : Prop :=
  ∀ (i : Instr) (f : WireFrame) (t : List Byte), WellFormed i → i.wireFrame = some f →
    ∃ b, encode i = some b ∧ decode f.rev f.kind f.expected (b ++ t) = .ok (i, t)

/-- R61 to R64 (log 17): whatever the decoder reads is the encoding of what it answers, so a frame has one meaning. -/
def Obligations.EncodeInvertsDecode : Prop :=
  ∀ (rev : Rev) (kind : FrameKind) (n : Nat) (b t : List Byte) (i : Instr),
    decode rev kind n b = .ok (i, t) → ∃ w, encode i = some w ∧ b = w ++ t

/-- A few frames written out from R61 to R64 decode to the instructions they stand for. The codes 01 and 03 are from general
knowledge (D1, log 19), the V2 check bytes rest on log 20 to log 22, reading a request back is the model's (log 17), and so
are the status rows (log 16). -/
def Obligations.WrittenFramesDecode : Prop :=
  decodeFrame .v1 .request 1 [0xFF, 0xFF, 0x01, 0x04, 0x02, 0x2B, 0x01, 0xCC] = .ok (.v1Read 0x01 [0x2B, 0x01] 1) ∧
  decodeFrame .v1 .request 0 [0xFF, 0xFF, 0xFE, 0x04, 0x03, 0x03, 0x01, 0xF6] = .ok (.v1Write 0xFE [0x03, 0x01] 0) ∧
  decodeFrame .v2 .request 0 [0xFF, 0xFF, 0xFD, 0x00, 0x01, 0x03, 0x00, 0x01, 0x3A, 0x14] = .ok (.v2Ping 0x01 [] 0) ∧
  decodeFrame .v2 .request 0
      [0xFF, 0xFF, 0xFD, 0x00, 0x01, 0x08, 0x00, 0x03, 0x10, 0x00, 0xFF, 0xFF, 0xFD, 0xFD, 0x13, 0x5C] =
    .ok (.v2Write 0x01 [0x10, 0x00, 0xFF, 0xFF, 0xFD] 0) ∧
  decodeFrame .v1 .status 1 [0xFF, 0xFF, 0x01, 0x03, 0x00, 0x20, 0xDB] = .ok (.v1Status 0x01 0x00 [0x20] 0xDB 1) ∧
  decodeFrame .v2 .status 2 [0xFF, 0xFF, 0xFD, 0x00, 0x01, 0x06, 0x00, 0x55, 0x00, 0x34, 0x12, 0x62, 0xAD] =
    .ok (.v2Status 0x01 0x55 0x00 [0x34, 0x12] 0xAD62 2)

/-- R34, R57, R204: in Idle a step lets the bytes that arrived between the operations into RXQ, behind the pending ones, then
takes the operation the host issues next and executes it, whether it is given as itself or as the bytes of its frame.
WRITE_FRAME and READ_EXACT are not offered to the caller (R125; refused, log 13), the pure operations are (log 38). Bytes given
as a request that are none are refused by name (R74, U2; log 17); received bytes are decoded by DECODE_STATUS whatever they are
(R98, R99, log 16). An unbound PPE names NotBound for every command but CONSTRUCT (R39; the order is log 39). With nothing
issued the machine waits, and while a transaction runs it advances the sequencer (log 4, log 9, log 10). -/
def Obligations.StepRunsTheIssuedInstruction : Prop :=
  ∀ (s : State) (rest : List Command),
    let now := { s with rxq := s.rxq ++ s.env.between.headD [], env := { s.env with between := s.env.between.tail } }
    (∀ i, s.fsm = .idle → s.pending = .call i :: rest → (∀ b, i ≠ .writeFrame b) → (∀ n, i ≠ .readExact n) →
      step s = exec i { now with pending := rest }) ∧
    (∀ b, s.Ready → s.pending = .call (.writeFrame b) :: rest → step s = .refused .notOffered) ∧
    (∀ n, s.Ready → s.pending = .call (.readExact n) :: rest → step s = .refused .notOffered) ∧
    (∀ kind n b i, s.fsm = .idle → s.pending = .frame kind n b :: rest → decode s.cfg.rev kind n b = .ok (i, []) →
      step s = exec i { now with pending := rest }) ∧
    (∀ n b why, s.Ready → s.pending = .frame .request n b :: rest → decodeFrame s.cfg.rev .request n b = .error why →
      step s = .refused (.undecodable why)) ∧
    (∀ n b, s.Ready → s.pending = .frame .status n b :: rest →
      step s = .next { now with pending := rest, ret := .decoded (decodeStatus s.cfg.rev n b) }) ∧
    (∀ c, s.bound = false → s.fsm = .idle → s.pending = c :: rest → (∀ i, c = .call i → isConstruct i = false) →
      step s = .refused .notBound) ∧
    (s.fsm = .idle → s.pending = [] → step s = .next now) ∧
    (s.fsm ≠ .idle → step s = .next s.advance)

/-- R37, R54, R22, R28 to R30, R39: every step keeps the invariant: DIR is RX, every transmission on the line is closed and no
receive stands inside one, the multiplicity is legal, latches live only in a transaction, OUT is written at Done. What dead
latches hold is the model's choice (log 2). -/
def Obligations.EveryStepKeepsTheInvariant : Prop :=
  ∀ s t : State, s.Inv → step s = .next t → t.Inv

/-- R39, R33: the machine before any CONSTRUCT meets the invariant. The spec gives BOUND and TXTRACE; the multiplicity before
CONSTRUCT is the model's choice (log 1), and so are the dead latches (log 2), DIR and FSM (log 28). -/
def Obligations.ResetMeetsTheInvariant : Prop :=
  State.reset.Inv
end

