-- ==== Sys2Proof/Laws/Codec.lean ====
section
/-! SUPPORT. Byte order, slices, the scanner of STUFF and UNSTUFF in step with each other, and the lengths of frames. -/

namespace Sys2Proof.Laws

open Sys2Proof.Machine

/-! ### Bytes -/

theorem lo8_ofNat (v : Nat) : lo8 (BitVec.ofNat 16 v) = BitVec.ofNat 8 v := by
  apply BitVec.eq_of_toNat_eq
  simp [lo8, BitVec.extractLsb'_toNat]

theorem hi8_ofNat (v : Nat) (h : v < 65536) : hi8 (BitVec.ofNat 16 v) = BitVec.ofNat 8 (v / 256) := by
  apply BitVec.eq_of_toNat_eq
  simp [hi8, BitVec.extractLsb'_toNat, Nat.shiftRight_eq_div_pow]
  omega

theorem le16_ofNat (v : Nat) (h : v < 65536) : le16 (BitVec.ofNat 16 v) = [BitVec.ofNat 8 v, BitVec.ofNat 8 (v / 256)] := by
  simp [le16, lo8_ofNat, hi8_ofNat v h]

theorem fromLe16_toNat (lo hi : Byte) : (fromLe16 lo hi).toNat = lo.toNat + 256 * hi.toNat := by
  have := lo.isLt
  show (hi ++ lo).toNat = _
  rw [BitVec.toNat_append, Nat.shiftLeft_eq, Nat.mul_comm, ← Nat.two_pow_add_eq_or_of_lt (i := 8) this]
  omega

/-- Reassembling what was split. -/
theorem fromLe16_le16 (v : Word) : fromLe16 (lo8 v) (hi8 v) = v := by
  apply BitVec.eq_of_toNat_eq
  rw [fromLe16_toNat]
  have := v.isLt
  simp [lo8, hi8, BitVec.extractLsb'_toNat, Nat.shiftRight_eq_div_pow]
  omega

/-- Splitting what was reassembled. -/
theorem le16_fromLe16 (lo hi : Byte) : le16 (fromLe16 lo hi) = [lo, hi] := by
  have h1 := lo.isLt
  have h2 := hi.isLt
  simp only [le16, List.cons.injEq, and_true]
  constructor <;> apply BitVec.eq_of_toNat_eq <;>
    simp only [lo8, hi8, BitVec.extractLsb'_toNat, fromLe16_toNat, Nat.shiftRight_eq_div_pow] <;> omega

@[simp] theorem le16_length (v : Word) : (le16 v).length = 2 := rfl

theorem byteAt_drop (b : List Byte) (i k : Nat) : byteAt b (i + k) = byteAt (b.drop i) k := by
  simp [byteAt, List.getElem?_drop]

theorem byteAt_append (a b : List Byte) (k : Nat) : byteAt (a ++ b) (a.length + k) = byteAt b k := by
  rw [byteAt_drop]; simp

/-- A byte or a slice inside the first of two sequences. -/
theorem byteAt_append_left {a : List Byte} (b : List Byte) {i : Nat} (h : i < a.length) : byteAt (a ++ b) i = byteAt a i := by
  simp [byteAt, List.getElem?_append_left h]

theorem slice_append_left {a : List Byte} (b : List Byte) (i : Nat) {j : Nat} (h : j ≤ a.length) :
    slice (a ++ b) i j = slice a i j := by
  simp only [slice]
  by_cases hi : i ≤ a.length
  · rw [List.drop_append_of_le_length hi, List.take_append_of_le_length (by simp; omega)]
  · rw [show j - i = 0 by omega]; simp

/-! ### STUFF -/

theorem stuffFrom_length_le (b : List Byte) : ∀ p2 p1, b.length ≤ (stuffFrom p2 p1 b).length := by
  induction b with
  | nil => intros; exact Nat.le_refl _
  | cons x b ih =>
    intro p2 p1
    have := ih p1 x
    simp only [stuffFrom]
    split <;> simp <;> omega

theorem stuff_length_le (b : List Byte) : b.length ≤ (stuff b).length := stuffFrom_length_le b 0 0

/-- The body and the stuffed body differ as soon as one byte was inserted. -/
theorem stuffFrom_eq_self (b : List Byte) : ∀ p2 p1, (stuffFrom p2 p1 b).length = b.length → stuffFrom p2 p1 b = b := by
  induction b with
  | nil => intros; rfl
  | cons x b ih =>
    intro p2 p1 h
    have hl := stuffFrom_length_le b p1 x
    simp only [stuffFrom] at h ⊢
    split at h
    · simp at h; omega
    · rename_i hp
      rw [if_neg hp, ih p1 x (by simpa using h)]

/-- No byte is inserted before the fourth, so the first three bytes of a body are where the layout puts them. -/
theorem stuff_three (x y z : Byte) (b : List Byte) : ∃ r, stuff (x :: y :: z :: b) = x :: y :: z :: r := by
  simp only [stuff, stuffFrom, isPattern]
  simp
  split <;> exact ⟨_, rfl⟩

/-! ### UNSTUFF against STUFF -/

theorem unstuffFrom_stuffFrom (b : List Byte) : ∀ p2 p1, unstuffFrom false p2 p1 (stuffFrom p2 p1 b) = b := by
  induction b with
  | nil => intros; rfl
  | cons x b ih =>
    intro p2 p1
    cases h : isPattern p2 p1 x <;> simp [stuffFrom, unstuffFrom, h, ih]

theorem unstuffTakeFrom_stuffFrom (t : List Byte) (b : List Byte) :
    ∀ p2 p1, unstuffTakeFrom false p2 p1 (stuffFrom p2 p1 b ++ t) b.length = some (b, (stuffFrom p2 p1 b).length) := by
  induction b with
  | nil => intros; simp [stuffFrom, unstuffTakeFrom]
  | cons x b ih =>
    intro p2 p1
    cases h : isPattern p2 p1 x
    · simp [stuffFrom, unstuffTakeFrom, h, ih]
    · have key : unstuffTakeFrom true p1 x (0xFD :: (stuffFrom p1 x b ++ t)) b.length =
          some (b, (stuffFrom p1 x b).length + 1) := by
        cases b with
        | nil => simp [unstuffTakeFrom, stuffFrom]
        | cons y b =>
          have e := ih p1 x
          simp only [List.length_cons] at e ⊢
          rw [unstuffTakeFrom]
          simp [e]
      simp only [stuffFrom, h, if_true, List.cons_append, List.length_cons, unstuffTakeFrom]
      simp only [Bool.false_and, Bool.false_eq_true, if_false, key]
      rfl

/-- What UNSTUFF_TAKE answers is the first `k` bytes of UNSTUFF, and which wire bytes those are. -/
theorem unstuffTakeFrom_some (w : List Byte) :
    ∀ due p2 p1 k l u, unstuffTakeFrom due p2 p1 w k = some (l, u) →
      l = (unstuffFrom due p2 p1 w).take k ∧ l.length = k ∧ u ≤ w.length ∧ unstuffFrom due p2 p1 (w.take u) = l := by
  induction w with
  | nil =>
    intro due p2 p1 k l u h
    cases k with
    | zero => simp [unstuffTakeFrom] at h; obtain ⟨rfl, rfl⟩ := h; simp [unstuffFrom]
    | succ k => simp [unstuffTakeFrom] at h
  | cons x w ih =>
    intro due p2 p1 k l u h
    cases k with
    | zero =>
      simp only [unstuffTakeFrom, List.head?_cons, Option.some.injEq, Prod.mk.injEq] at h
      obtain ⟨rfl, rfl⟩ := h
      split
      · rename_i hd
        have hd' : (due && decide (x = 253#8)) = true := by simpa using hd
        simp [unstuffFrom, hd']
      · simp [unstuffFrom]
    | succ k =>
      rw [unstuffTakeFrom] at h
      split at h
      · rename_i hd
        simp only [Option.map_eq_some_iff, Prod.exists, Prod.mk.injEq] at h
        obtain ⟨l', u', h', rfl, rfl⟩ := h
        obtain ⟨h1, h2, h3, h4⟩ := ih _ _ _ _ _ _ h'
        refine ⟨?_, h2, by simpa using h3, ?_⟩
        · rw [unstuffFrom, if_pos hd]; exact h1
        · rw [List.take_succ_cons, unstuffFrom, if_pos hd]; exact h4
      · rename_i hd
        simp only [Option.map_eq_some_iff, Prod.exists, Prod.mk.injEq] at h
        obtain ⟨l', u', h', rfl, rfl⟩ := h
        obtain ⟨h1, h2, h3, h4⟩ := ih _ _ _ _ _ _ h'
        refine ⟨?_, by simpa using h2, by simpa using h3, ?_⟩
        · rw [unstuffFrom, if_neg hd, List.take_succ_cons, ← h1]
        · rw [List.take_succ_cons, unstuffFrom, if_neg hd, h4]

theorem unstuffTakeFrom_none (w : List Byte) :
    ∀ due p2 p1 k, unstuffTakeFrom due p2 p1 w k = none ↔ (unstuffFrom due p2 p1 w).length < k := by
  induction w with
  | nil => intro due p2 p1 k; cases k <;> simp [unstuffTakeFrom, unstuffFrom]
  | cons x w ih =>
    intro due p2 p1 k
    cases k with
    | zero => simp [unstuffTakeFrom]
    | succ k =>
      rw [unstuffTakeFrom, unstuffFrom]
      split
      · simp [ih]
      · simp [ih]

/-- More bytes behind change nothing but, if the wire bytes ended right behind a pattern, whether its FD is dropped. -/
theorem unstuffTakeFrom_append (t w : List Byte) :
    ∀ due p2 p1 k l u, unstuffTakeFrom due p2 p1 w k = some (l, u) →
      ∃ u', unstuffTakeFrom due p2 p1 (w ++ t) k = some (l, u') ∧ (u' = u ∨ u' = u + 1 ∧ u = w.length) := by
  induction w with
  | nil =>
    intro due p2 p1 k l u h
    cases k with
    | zero =>
      simp [unstuffTakeFrom] at h
      obtain ⟨rfl, rfl⟩ := h
      simp only [List.nil_append, unstuffTakeFrom]
      refine ⟨_, rfl, ?_⟩
      split <;> simp
    | succ k => simp [unstuffTakeFrom] at h
  | cons x w ih =>
    intro due p2 p1 k l u h
    cases k with
    | zero => exact ⟨u, by simpa [unstuffTakeFrom] using h, .inl rfl⟩
    | succ k =>
      rw [unstuffTakeFrom] at h
      rw [List.cons_append, unstuffTakeFrom]
      split at h
      all_goals
        rename_i hd
        simp only [Option.map_eq_some_iff, Prod.exists, Prod.mk.injEq] at h
        obtain ⟨l', u', h', rfl, rfl⟩ := h
        obtain ⟨u'', e, hu⟩ := ih _ _ _ _ _ _ h'
      · rw [if_pos hd, e]
        exact ⟨u'' + 1, rfl, by simp; omega⟩
      · rw [if_neg hd, e]
        exact ⟨u'' + 1, rfl, by simp; omega⟩

/-! ### Instruction codes -/

theorem instrOfCode_instrCode (i : WireInstr) : instrOfCode (instrCode i) = some i := by cases i <;> rfl

theorem instrCode_of_instrOfCode {c : Byte} {i : WireInstr} (h : instrOfCode c = some i) : instrCode i = c := by
  simpa using List.find?_some h

/-! ### Lengths of frames -/

theorem requestBody_length (rev : Rev) (id : Byte) (instr : WireInstr) (params : List Byte) :
    (requestBody rev id instr params).length = params.length + (match rev with | .v1 => 3 | .v2 => 4) := by
  cases rev <;> simp [requestBody, le16]

theorem statusBody_length (rev : Rev) (id err : Byte) (params : List Byte) :
    (statusBody rev id err params).length = params.length + (match rev with | .v1 => 3 | .v2 => 5) := by
  cases rev <;> simp [statusBody, le16]

theorem v1Frame_length (body : List Byte) : (v1Frame body).length = body.length + 3 := by
  simp [v1Frame, v1Marker]

theorem v2Frame_length (w : Switches) (body : List Byte) : (v2Frame w body).length = (stuff body).length + 6 := by
  simp [v2Frame, v2Marker]

end Sys2Proof.Laws
end

