-- ==== Sys2Proof/Laws/State.lean ====
section
/-! SUPPORT. What each update of the state does to each field, one lemma per field per update, so that no proof unfolds a
record update. -/

namespace Sys2Proof.Laws

open Sys2Proof.Machine

variable (s : State)

@[simp] theorem give_bound (v : Returned) : (s.give v).bound = s.bound := rfl
@[simp] theorem give_cfg (v : Returned) : (s.give v).cfg = s.cfg := rfl
@[simp] theorem give_dir (v : Returned) : (s.give v).dir = s.dir := rfl
@[simp] theorem give_fsm (v : Returned) : (s.give v).fsm = s.fsm := rfl
@[simp] theorem give_req (v : Returned) : (s.give v).req = s.req := rfl
@[simp] theorem give_txbuf (v : Returned) : (s.give v).txbuf = s.txbuf := rfl
@[simp] theorem give_rxbuf (v : Returned) : (s.give v).rxbuf = s.rxbuf := rfl
@[simp] theorem give_out (v : Returned) : (s.give v).out = s.out := rfl
@[simp] theorem give_trace (v : Returned) : (s.give v).trace = s.trace := rfl
@[simp] theorem give_rxq (v : Returned) : (s.give v).rxq = s.rxq := rfl
@[simp] theorem give_pending (v : Returned) : (s.give v).pending = s.pending := rfl
@[simp] theorem give_env (v : Returned) : (s.give v).env = s.env := rfl
@[simp] theorem give_ret (v : Returned) : (s.give v).ret = v := rfl

@[simp] theorem log_bound (e : List Event) : (s.log e).bound = s.bound := rfl
@[simp] theorem log_cfg (e : List Event) : (s.log e).cfg = s.cfg := rfl
@[simp] theorem log_dir (e : List Event) : (s.log e).dir = s.dir := rfl
@[simp] theorem log_fsm (e : List Event) : (s.log e).fsm = s.fsm := rfl
@[simp] theorem log_req (e : List Event) : (s.log e).req = s.req := rfl
@[simp] theorem log_txbuf (e : List Event) : (s.log e).txbuf = s.txbuf := rfl
@[simp] theorem log_rxbuf (e : List Event) : (s.log e).rxbuf = s.rxbuf := rfl
@[simp] theorem log_out (e : List Event) : (s.log e).out = s.out := rfl
@[simp] theorem log_trace (e : List Event) : (s.log e).trace = s.trace ++ e := rfl
@[simp] theorem log_rxq (e : List Event) : (s.log e).rxq = s.rxq := rfl
@[simp] theorem log_pending (e : List Event) : (s.log e).pending = s.pending := rfl
@[simp] theorem log_env (e : List Event) : (s.log e).env = s.env := rfl
@[simp] theorem log_ret (e : List Event) : (s.log e).ret = s.ret := rfl

@[simp] theorem drive_bound (d : Direction) : (s.drive d).bound = s.bound := rfl
@[simp] theorem drive_cfg (d : Direction) : (s.drive d).cfg = s.cfg := rfl
@[simp] theorem drive_dir (d : Direction) : (s.drive d).dir = d := rfl
@[simp] theorem drive_fsm (d : Direction) : (s.drive d).fsm = s.fsm := rfl
@[simp] theorem drive_req (d : Direction) : (s.drive d).req = s.req := rfl
@[simp] theorem drive_txbuf (d : Direction) : (s.drive d).txbuf = s.txbuf := rfl
@[simp] theorem drive_rxbuf (d : Direction) : (s.drive d).rxbuf = s.rxbuf := rfl
@[simp] theorem drive_out (d : Direction) : (s.drive d).out = s.out := rfl
@[simp] theorem drive_trace (d : Direction) : (s.drive d).trace = s.trace ++ [.dir d] := rfl
@[simp] theorem drive_rxq (d : Direction) : (s.drive d).rxq = s.rxq := rfl
@[simp] theorem drive_pending (d : Direction) : (s.drive d).pending = s.pending := rfl
@[simp] theorem drive_env (d : Direction) : (s.drive d).env = s.env := rfl
@[simp] theorem drive_ret (d : Direction) : (s.drive d).ret = s.ret := rfl

@[simp] theorem arrive_bound : (s.arrive).bound = s.bound := rfl
@[simp] theorem arrive_cfg : (s.arrive).cfg = s.cfg := rfl
@[simp] theorem arrive_dir : (s.arrive).dir = s.dir := rfl
@[simp] theorem arrive_fsm : (s.arrive).fsm = s.fsm := rfl
@[simp] theorem arrive_req : (s.arrive).req = s.req := rfl
@[simp] theorem arrive_txbuf : (s.arrive).txbuf = s.txbuf := rfl
@[simp] theorem arrive_rxbuf : (s.arrive).rxbuf = s.rxbuf := rfl
@[simp] theorem arrive_out : (s.arrive).out = s.out := rfl
@[simp] theorem arrive_trace : (s.arrive).trace = s.trace := rfl
@[simp] theorem arrive_rxq : (s.arrive).rxq = s.rxq ++ s.env.arriving := rfl
@[simp] theorem arrive_pending : (s.arrive).pending = s.pending := rfl
@[simp] theorem arrive_env : (s.arrive).env = { s.env with between := s.env.between.tail } := rfl
@[simp] theorem arrive_ret : (s.arrive).ret = s.ret := rfl

@[simp] theorem accept_bound (r : Request) (b : List Byte) : (s.accept r b).bound = s.bound := rfl
@[simp] theorem accept_cfg (r : Request) (b : List Byte) : (s.accept r b).cfg = s.cfg := rfl
@[simp] theorem accept_dir (r : Request) (b : List Byte) : (s.accept r b).dir = s.dir := rfl
@[simp] theorem accept_fsm (r : Request) (b : List Byte) : (s.accept r b).fsm = s.fsm := rfl
@[simp] theorem accept_req (r : Request) (b : List Byte) : (s.accept r b).req = r := rfl
@[simp] theorem accept_txbuf (r : Request) (b : List Byte) : (s.accept r b).txbuf = b := rfl
@[simp] theorem accept_rxbuf (r : Request) (b : List Byte) : (s.accept r b).rxbuf = s.rxbuf := rfl
@[simp] theorem accept_out (r : Request) (b : List Byte) : (s.accept r b).out = s.out := rfl
@[simp] theorem accept_trace (r : Request) (b : List Byte) : (s.accept r b).trace = s.trace := rfl
@[simp] theorem accept_rxq (r : Request) (b : List Byte) : (s.accept r b).rxq = s.rxq := rfl
@[simp] theorem accept_pending (r : Request) (b : List Byte) : (s.accept r b).pending = s.pending := rfl
@[simp] theorem accept_env (r : Request) (b : List Byte) : (s.accept r b).env = s.env := rfl
@[simp] theorem accept_ret (r : Request) (b : List Byte) : (s.accept r b).ret = s.ret := rfl

@[simp] theorem raise_bound (k : ErrorKind) : (s.raise k).bound = s.bound := rfl
@[simp] theorem raise_cfg (k : ErrorKind) : (s.raise k).cfg = s.cfg := rfl
@[simp] theorem raise_dir (k : ErrorKind) : (s.raise k).dir = s.dir := rfl
@[simp] theorem raise_fsm (k : ErrorKind) : (s.raise k).fsm = .done := rfl
@[simp] theorem raise_req (k : ErrorKind) : (s.raise k).req = s.req := rfl
@[simp] theorem raise_txbuf (k : ErrorKind) : (s.raise k).txbuf = s.txbuf := rfl
@[simp] theorem raise_rxbuf (k : ErrorKind) : (s.raise k).rxbuf = s.rxbuf := rfl
@[simp] theorem raise_out (k : ErrorKind) : (s.raise k).out = some (.err k) := rfl
@[simp] theorem raise_trace (k : ErrorKind) : (s.raise k).trace = s.trace := rfl
@[simp] theorem raise_rxq (k : ErrorKind) : (s.raise k).rxq = s.rxq := rfl
@[simp] theorem raise_pending (k : ErrorKind) : (s.raise k).pending = s.pending := rfl
@[simp] theorem raise_env (k : ErrorKind) : (s.raise k).env = s.env := rfl
@[simp] theorem raise_ret (k : ErrorKind) : (s.raise k).ret = s.ret := rfl

@[simp] theorem finish_bound (o : TxnOutcome) : (s.finish o).bound = s.bound := rfl
@[simp] theorem finish_cfg (o : TxnOutcome) : (s.finish o).cfg = s.cfg := rfl
@[simp] theorem finish_dir (o : TxnOutcome) : (s.finish o).dir = s.dir := rfl
@[simp] theorem finish_fsm (o : TxnOutcome) : (s.finish o).fsm = .done := rfl
@[simp] theorem finish_req (o : TxnOutcome) : (s.finish o).req = s.req := rfl
@[simp] theorem finish_txbuf (o : TxnOutcome) : (s.finish o).txbuf = s.txbuf := rfl
@[simp] theorem finish_rxbuf (o : TxnOutcome) : (s.finish o).rxbuf = s.rxbuf := rfl
@[simp] theorem finish_out (o : TxnOutcome) : (s.finish o).out = some o := rfl
@[simp] theorem finish_trace (o : TxnOutcome) : (s.finish o).trace = s.trace := rfl
@[simp] theorem finish_rxq (o : TxnOutcome) : (s.finish o).rxq = s.rxq := rfl
@[simp] theorem finish_pending (o : TxnOutcome) : (s.finish o).pending = s.pending := rfl
@[simp] theorem finish_env (o : TxnOutcome) : (s.finish o).env = s.env := rfl
@[simp] theorem finish_ret (o : TxnOutcome) : (s.finish o).ret = s.ret := rfl

@[simp] theorem dropLatches_bound : (s.dropLatches).bound = s.bound := rfl
@[simp] theorem dropLatches_cfg : (s.dropLatches).cfg = s.cfg := rfl
@[simp] theorem dropLatches_dir : (s.dropLatches).dir = s.dir := rfl
@[simp] theorem dropLatches_fsm : (s.dropLatches).fsm = s.fsm := rfl
@[simp] theorem dropLatches_req : (s.dropLatches).req = Request.dead := rfl
@[simp] theorem dropLatches_txbuf : (s.dropLatches).txbuf = [] := rfl
@[simp] theorem dropLatches_rxbuf : (s.dropLatches).rxbuf = [] := rfl
@[simp] theorem dropLatches_out : (s.dropLatches).out = none := rfl
@[simp] theorem dropLatches_trace : (s.dropLatches).trace = s.trace := rfl
@[simp] theorem dropLatches_rxq : (s.dropLatches).rxq = s.rxq := rfl
@[simp] theorem dropLatches_pending : (s.dropLatches).pending = s.pending := rfl
@[simp] theorem dropLatches_env : (s.dropLatches).env = s.env := rfl
@[simp] theorem dropLatches_ret : (s.dropLatches).ret = s.ret := rfl

@[simp] theorem returnToCaller_bound : (s.returnToCaller).bound = s.bound := rfl
@[simp] theorem returnToCaller_cfg : (s.returnToCaller).cfg = s.cfg := rfl
@[simp] theorem returnToCaller_dir : (s.returnToCaller).dir = s.dir := rfl
@[simp] theorem returnToCaller_fsm : (s.returnToCaller).fsm = .idle := rfl
@[simp] theorem returnToCaller_req : (s.returnToCaller).req = Request.dead := rfl
@[simp] theorem returnToCaller_txbuf : (s.returnToCaller).txbuf = [] := rfl
@[simp] theorem returnToCaller_rxbuf : (s.returnToCaller).rxbuf = [] := rfl
@[simp] theorem returnToCaller_out : (s.returnToCaller).out = none := rfl
@[simp] theorem returnToCaller_trace : (s.returnToCaller).trace = s.trace := rfl
@[simp] theorem returnToCaller_rxq : (s.returnToCaller).rxq = s.rxq := rfl
@[simp] theorem returnToCaller_pending : (s.returnToCaller).pending = s.pending := rfl
@[simp] theorem returnToCaller_env : (s.returnToCaller).env = s.env := rfl
@[simp] theorem returnToCaller_ret : (s.returnToCaller).ret = Returned.ofOut s.out := rfl

@[simp] theorem constructed_bound (c : Cfg) : (s.constructed c).bound = true := rfl
@[simp] theorem constructed_cfg (c : Cfg) : (s.constructed c).cfg = c := rfl
@[simp] theorem constructed_dir (c : Cfg) : (s.constructed c).dir = .rx := rfl
@[simp] theorem constructed_fsm (c : Cfg) : (s.constructed c).fsm = .idle := rfl
@[simp] theorem constructed_req (c : Cfg) : (s.constructed c).req = Request.dead := rfl
@[simp] theorem constructed_txbuf (c : Cfg) : (s.constructed c).txbuf = [] := rfl
@[simp] theorem constructed_rxbuf (c : Cfg) : (s.constructed c).rxbuf = [] := rfl
@[simp] theorem constructed_out (c : Cfg) : (s.constructed c).out = none := rfl
@[simp] theorem constructed_trace (c : Cfg) : (s.constructed c).trace = [] := rfl
@[simp] theorem constructed_rxq (c : Cfg) : (s.constructed c).rxq = s.boundRxq := rfl
@[simp] theorem constructed_pending (c : Cfg) : (s.constructed c).pending = s.pending := rfl
@[simp] theorem constructed_env (c : Cfg) : (s.constructed c).env = { s.env with bind := s.env.bind.tail } := rfl
@[simp] theorem constructed_ret (c : Cfg) : (s.constructed c).ret = .unit := rfl

@[simp] theorem returned_bound (e : List Event) (q : List Byte) (v : Environment) (o : TxnOutcome) : (s.returned e q v o).bound = s.bound := rfl
@[simp] theorem returned_cfg (e : List Event) (q : List Byte) (v : Environment) (o : TxnOutcome) : (s.returned e q v o).cfg = s.cfg := rfl
@[simp] theorem returned_dir (e : List Event) (q : List Byte) (v : Environment) (o : TxnOutcome) : (s.returned e q v o).dir = .rx := rfl
@[simp] theorem returned_fsm (e : List Event) (q : List Byte) (v : Environment) (o : TxnOutcome) : (s.returned e q v o).fsm = .idle := rfl
@[simp] theorem returned_req (e : List Event) (q : List Byte) (v : Environment) (o : TxnOutcome) : (s.returned e q v o).req = Request.dead := rfl
@[simp] theorem returned_txbuf (e : List Event) (q : List Byte) (v : Environment) (o : TxnOutcome) : (s.returned e q v o).txbuf = [] := rfl
@[simp] theorem returned_rxbuf (e : List Event) (q : List Byte) (v : Environment) (o : TxnOutcome) : (s.returned e q v o).rxbuf = [] := rfl
@[simp] theorem returned_out (e : List Event) (q : List Byte) (v : Environment) (o : TxnOutcome) : (s.returned e q v o).out = none := rfl
@[simp] theorem returned_trace (e : List Event) (q : List Byte) (v : Environment) (o : TxnOutcome) : (s.returned e q v o).trace = s.trace ++ e := rfl
@[simp] theorem returned_rxq (e : List Event) (q : List Byte) (v : Environment) (o : TxnOutcome) : (s.returned e q v o).rxq = q := rfl
@[simp] theorem returned_pending (e : List Event) (q : List Byte) (v : Environment) (o : TxnOutcome) : (s.returned e q v o).pending = s.pending := rfl
@[simp] theorem returned_env (e : List Event) (q : List Byte) (v : Environment) (o : TxnOutcome) : (s.returned e q v o).env = v := rfl
@[simp] theorem returned_ret (e : List Event) (q : List Byte) (v : Environment) (o : TxnOutcome) : (s.returned e q v o).ret = .outcome o := rfl

@[simp] theorem send_bound (b : List Byte) : (s.send b).bound = s.bound := by simp only [State.send]; split <;> rfl
@[simp] theorem send_cfg (b : List Byte) : (s.send b).cfg = s.cfg := by simp only [State.send]; split <;> rfl
@[simp] theorem send_dir (b : List Byte) : (s.send b).dir = s.dir := by simp only [State.send]; split <;> rfl
@[simp] theorem send_fsm (b : List Byte) : (s.send b).fsm = s.fsm := by simp only [State.send]; split <;> rfl
@[simp] theorem send_req (b : List Byte) : (s.send b).req = s.req := by simp only [State.send]; split <;> rfl
@[simp] theorem send_txbuf (b : List Byte) : (s.send b).txbuf = s.txbuf := by simp only [State.send]; split <;> rfl
@[simp] theorem send_rxbuf (b : List Byte) : (s.send b).rxbuf = s.rxbuf := by simp only [State.send]; split <;> rfl
@[simp] theorem send_out (b : List Byte) : (s.send b).out = s.out := by simp only [State.send]; split <;> rfl
@[simp] theorem send_pending (b : List Byte) : (s.send b).pending = s.pending := by simp only [State.send]; split <;> rfl
@[simp] theorem send_ret (b : List Byte) : (s.send b).ret = s.ret := by simp only [State.send]; split <;> rfl

/-- A channel fault or none: either way the environment's answer is used up. -/
@[simp] theorem send_env (b : List Byte) : (s.send b).env = { s.env with tx := s.env.tx.tail } := by
  simp only [State.send]; split <;> rfl

end Sys2Proof.Laws
end

