-- ==== Sys2Proof/Laws/Ops.lean ====
section
/-! SUPPORT. What the shared operations can do, each said once: admission, WRITE_FRAME, READ_EXACT. -/

namespace Sys2Proof.Laws

open Sys2Proof.Machine

/-! ### Admission -/

theorem refusal?_none_iff (s : State) : s.refusal? = none ↔ s.Ready := by
  unfold State.refusal? State.Ready
  cases s.bound <;> by_cases h : s.fsm = .idle <;> simp [h]

/-- An admitted operation is its run. -/
theorem whenAdmitted_of_ready {s : State} (h : s.Ready) (run : State → Host.Outcome State Fault Refusal) :
    s.whenAdmitted run = run s := by
  simp [State.whenAdmitted, (refusal?_none_iff s).2 h]

/-- Only an admitted operation has a next state. -/
theorem whenAdmitted_eq_next {s t : State} {run : State → Host.Outcome State Fault Refusal}
    (h : s.whenAdmitted run = .next t) : s.Ready ∧ run s = .next t := by
  unfold State.whenAdmitted at h
  split at h
  · cases h
  · exact ⟨(refusal?_none_iff s).1 ‹_›, h⟩

theorem whenAdmitted_of_unbound {s : State} (h : s.bound = false) (run : State → Host.Outcome State Fault Refusal) :
    s.whenAdmitted run = .refused .notBound := by
  simp [State.whenAdmitted, State.refusal?, h]

theorem whenAdmitted_of_busy {s : State} (hb : s.bound = true) (hf : s.fsm ≠ .idle)
    (run : State → Host.Outcome State Fault Refusal) : s.whenAdmitted run = .refused .busy := by
  simp [State.whenAdmitted, State.refusal?, hb, hf]

theorem answer_of_ready {s : State} (h : s.Ready) (v : Returned) : s.answer v = .next { s with ret := v } :=
  whenAdmitted_of_ready h _

theorem onRevision_of_ready {s : State} {rev : Rev} (h : s.Ready) (hr : s.cfg.rev = rev)
    (run : State → Host.Outcome State Fault Refusal) : s.onRevision rev run = run s := by
  simp [State.onRevision, whenAdmitted_of_ready h, hr]

theorem onRevision_of_other {s : State} {rev : Rev} (h : s.Ready) (hr : s.cfg.rev ≠ rev)
    (run : State → Host.Outcome State Fault Refusal) : s.onRevision rev run = .refused .wrongRevision := by
  simp [State.onRevision, whenAdmitted_of_ready h, hr]

/-- In the connection's own revision it is an admitted operation. -/
theorem onRevision_self (s : State) (run : State → Host.Outcome State Fault Refusal) :
    s.onRevision s.cfg.rev run = s.whenAdmitted run := by
  unfold State.onRevision State.whenAdmitted
  split
  · rfl
  · simp

/-- Only an operation of the connection's revision has a next state. -/
theorem onRevision_eq_next {s t : State} {rev : Rev} {run : State → Host.Outcome State Fault Refusal}
    (h : s.onRevision rev run = .next t) : s.Ready ∧ s.cfg.rev = rev ∧ run s = .next t := by
  obtain ⟨hr, hx⟩ := whenAdmitted_eq_next h
  split at hx
  · cases hx
  · exact ⟨hr, not_not.1 ‹_›, hx⟩

theorem answerOn_of_ready {s : State} {rev : Rev} (h : s.Ready) (hr : s.cfg.rev = rev) (v : Returned) :
    s.answerOn rev v = .next { s with ret := v } := onRevision_of_ready h hr _

theorem answerOn_of_other {s : State} {rev : Rev} (h : s.Ready) (hr : s.cfg.rev ≠ rev) (v : Returned) :
    s.answerOn rev v = .refused .wrongRevision := onRevision_of_other h hr _

/-! ### WRITE_FRAME -/

/-- A healthy channel: the whole frame, drained, and the line released. -/
theorem writeFrame_sent {s : State} (h : s.env.nextTx.fault = none) (b : List Byte) :
    writeFrame b s =
      ({ s with dir := .rx, trace := s.trace ++ sentEvents b, rxq := s.rxq ++ s.env.nextTx.arrivals,
                env := { s.env with tx := s.env.tx.tail } }, .ok ()) := by
  simp [writeFrame, State.send, State.drive, sentEvents, h]

/-- A faulty one: a prefix of the frame, and the line released all the same. -/
theorem writeFrame_failed {s : State} {f : TxFault} (h : s.env.nextTx.fault = some f) (b : List Byte) :
    writeFrame b s =
      ({ s with dir := .rx, trace := s.trace ++ failedEvents b f.sent, rxq := f.rxqAfter,
                env := { s.env with tx := s.env.tx.tail } }, .raised .transportFailure) := by
  simp [writeFrame, State.send, State.drive, failedEvents, h]

/-! ### READ_EXACT -/

theorem readExact_zero (discard : Bool) (s : State) : readExact discard 0 s = (s, .ok []) := rfl

theorem readExact_taken {s : State} {n : Nat} (discard : Bool) (hn : n ≠ 0) (hf : s.env.nextRx.fault = none)
    (hq : n ≤ (s.rxq ++ s.env.nextRx.arrivals).length) :
    readExact discard n s =
      ({ s with env := { s.env with rx := s.env.rx.tail }, rxq := (s.rxq ++ s.env.nextRx.arrivals).drop n,
                trace := s.trace ++ [takenEvent discard ((s.rxq ++ s.env.nextRx.arrivals).take n)] },
       .ok ((s.rxq ++ s.env.nextRx.arrivals).take n)) := by
  simp only [readExact, hf]
  rw [if_neg hn, if_pos hq]

theorem readExact_timeout {s : State} {n : Nat} (discard : Bool) (hf : s.env.nextRx.fault = none)
    (hq : (s.rxq ++ s.env.nextRx.arrivals).length < n) :
    readExact discard n s =
      ({ s with env := { s.env with rx := s.env.rx.tail }, rxq := [],
                trace := s.trace ++ [.rxTimeout (s.rxq ++ s.env.nextRx.arrivals)] }, .raised .timeout) := by
  simp only [readExact, hf]
  rw [if_neg (by omega), if_neg (by omega)]

theorem readExact_fault {s : State} {n : Nat} {after : List Byte} (discard : Bool) (hn : n ≠ 0)
    (hf : s.env.nextRx.fault = some after) :
    readExact discard n s =
      ({ s with env := { s.env with rx := s.env.rx.tail }, rxq := after, trace := s.trace ++ [.rxFail] },
       .raised .transportFailure) := by
  simp only [readExact, hf]
  rw [if_neg hn]

/-- The four things READ_EXACT can do. -/
theorem readExact_cases (discard : Bool) (n : Nat) (s : State) :
    (n = 0 ∧ readExact discard n s = (s, .ok [])) ∨
    (n ≠ 0 ∧ s.env.nextRx.fault = none ∧ n ≤ (s.rxq ++ s.env.nextRx.arrivals).length ∧
      readExact discard n s =
        ({ s with env := { s.env with rx := s.env.rx.tail }, rxq := (s.rxq ++ s.env.nextRx.arrivals).drop n,
                  trace := s.trace ++ [takenEvent discard ((s.rxq ++ s.env.nextRx.arrivals).take n)] },
         .ok ((s.rxq ++ s.env.nextRx.arrivals).take n))) ∨
    (n ≠ 0 ∧ s.env.nextRx.fault = none ∧ (s.rxq ++ s.env.nextRx.arrivals).length < n ∧
      readExact discard n s =
        ({ s with env := { s.env with rx := s.env.rx.tail }, rxq := [],
                  trace := s.trace ++ [.rxTimeout (s.rxq ++ s.env.nextRx.arrivals)] }, .raised .timeout)) ∨
    (n ≠ 0 ∧ ∃ after, s.env.nextRx.fault = some after ∧
      readExact discard n s =
        ({ s with env := { s.env with rx := s.env.rx.tail }, rxq := after, trace := s.trace ++ [.rxFail] },
         .raised .transportFailure)) := by
  by_cases hn : n = 0
  · subst hn; exact .inl ⟨rfl, rfl⟩
  · cases hf : s.env.nextRx.fault with
    | some after => exact .inr (.inr (.inr ⟨hn, after, rfl, readExact_fault discard hn hf⟩))
    | none =>
      by_cases hq : n ≤ (s.rxq ++ s.env.nextRx.arrivals).length
      · exact .inr (.inl ⟨hn, rfl, hq, readExact_taken discard hn hf hq⟩)
      · exact .inr (.inr (.inl ⟨hn, rfl, by omega, readExact_timeout discard hf (by omega)⟩))

end Sys2Proof.Laws
end

