-- ==== Sys2Proof/Laws/Engine.lean ====
section
/-! SUPPORT. The Transaction Engine's states, each by its cases, and TRANSACT as their composition. -/

namespace Sys2Proof.Laws

open Sys2Proof.Machine

theorem advance_done {s : State} (h : s.fsm = .done) : s.advance = s.returnToCaller := by simp [State.advance, h]
theorem advance_idle {s : State} (h : s.fsm = .idle) : s.advance = s := by simp [State.advance, h]
theorem advance_awaitFirst {s : State} (h : s.fsm = .awaitFirst) : s.advance = s.awaitFirst := by simp [State.advance, h]
theorem advance_awaitReply {s : State} (h : s.fsm = .awaitReply) : s.advance = s.awaitReply := by simp [State.advance, h]

theorem advance_advance_awaitReply {s : State} (h : s.fsm = .awaitReply) : s.advance.advance = s.awaitReply.advance := by
  rw [advance_awaitReply h]

/-- The return is where the walk ends. -/
theorem advance_advance_done {s : State} (h : s.fsm = .done) : s.advance.advance = s.returnToCaller := by
  rw [advance_done h]; rfl

/-- From Done the walk ends in the return, however many states were left. -/
theorem runToReturn_done {s : State} (h : s.fsm = .done) : s.runToReturn = s.returnToCaller := by
  unfold State.runToReturn
  rw [advance_done h, advance_idle (returnToCaller_fsm s), advance_idle (returnToCaller_fsm s)]

/-- From AwaitFirst, when the discard succeeds or is not made, the walk is the status receive and the return. -/
theorem runToReturn_awaitFirst {s : State} (h : s.fsm = .awaitFirst) :
    s.runToReturn = s.awaitFirst.advance.advance := by
  unfold State.runToReturn; rw [advance_awaitFirst h]

/-- CHECK_STATUS_ID is off, so every decoded frame is delivered (R19). -/
theorem deliver_eq_finish (s : State) (d : Decoded) : s.deliver d = s.finish d.outcome := by
  cases d <;> rfl

theorem sendRequest_sent {s : State} (h : s.env.nextTx.fault = none) :
    s.sendRequest =
      { s with dir := .rx, fsm := .awaitFirst, trace := s.trace ++ sentEvents s.txbuf,
               rxq := s.rxq ++ s.env.nextTx.arrivals, env := { s.env with tx := s.env.tx.tail } } := by
  simp [State.sendRequest, writeFrame_sent h]

theorem sendRequest_failed {s : State} {f : TxFault} (h : s.env.nextTx.fault = some f) :
    s.sendRequest =
      { s with dir := .rx, fsm := .done, out := some (.err .transportFailure),
               trace := s.trace ++ failedEvents s.txbuf f.sent,
               rxq := f.rxqAfter, env := { s.env with tx := s.env.tx.tail } } := by
  simp [State.sendRequest, writeFrame_failed h, State.raise]

/-- A request instruction is TRANSACT on a connection of its revision. -/
theorem exec_request (rev : Rev) (instr : WireInstr) (id : Byte) (params : List Byte) (n : Nat) (s : State) :
    exec (Instr.request rev instr id params n) s = requestOn rev instr id params n s := by
  cases rev <;> cases instr <;> rfl

/-- TRANSACT past its admission. -/
theorem exec_transact_of_admits {s : State} {id : Byte} {instr : WireInstr} {params : List Byte} {n : Nat}
    (h : s.Admits id instr params n) :
    exec (.transact id instr params n) s =
      .next (s.transaction { id := id, instr := instr, params := params, n := n }
        (requestFrame s.cfg.rev id instr params)) := by
  obtain ⟨hr, hp, hn, hm⟩ := h
  show s.whenAdmitted (transactAdmitted id instr params n) = _
  rw [whenAdmitted_of_ready hr]
  simp [transactAdmitted, requestFits, encodeRequest, hp, hn, Nat.not_lt.2 hp, Nat.not_lt.2 hm]

/-- What TRANSACT needs to answer a next state, and which. -/
theorem exec_transact_eq_next {s t : State} {id : Byte} {instr : WireInstr} {params : List Byte} {n : Nat}
    (h : exec (.transact id instr params n) s = .next t) :
    s.Admits id instr params n ∧
      t = s.transaction { id := id, instr := instr, params := params, n := n }
        (requestFrame s.cfg.rev id instr params) := by
  have h' : s.whenAdmitted (transactAdmitted id instr params n) = .next t := h
  obtain ⟨hr, hx⟩ := whenAdmitted_eq_next h'
  by_cases hp : params.length ≤ maxRequestParams s.cfg.rev
  · by_cases hn : n ≤ maxStatusParams s.cfg.rev
    · by_cases hm : (requestFrame s.cfg.rev id instr params).length ≤ s.cfg.maxPacket
      · have ha : s.Admits id instr params n := ⟨hr, hp, hn, hm⟩
        rw [exec_transact_of_admits ha] at h
        cases h
        exact ⟨ha, rfl⟩
      · simp [transactAdmitted, requestFits, encodeRequest, hp, hn, Nat.not_lt.2 hp, Nat.not_le.1 hm] at hx
    · simp [transactAdmitted, requestFits, hn] at hx
  · simp [transactAdmitted, requestFits, hp] at hx

/-- Both forms of a transaction run alike. -/
theorem exec_of_isTransaction {s : State} {id : Byte} {instr : WireInstr} {params : List Byte} {n : Nat} {i : Instr}
    (hi : IsTransaction s.cfg.rev id instr params n i) : exec i s = exec (.transact id instr params n) s := by
  rcases hi with rfl | rfl
  · rfl
  · rw [exec_request, requestOn, onRevision_self]
    rfl

/-! ### A transaction in closed form

A transaction reads only the configuration, N, RXQ and the environment, and writes only the trace, RXQ, the environment and
the returned outcome. `Moved` is what moves; `transaction_eq` says that the walk of the sequencer is that and nothing else. -/

/-- The events written, RXQ and the environment afterwards, and a result. -/
structure Moved (α : Type) where
  events : List Event
  rxq    : List Byte
  env    : Environment
  result : α

/-- READ_EXACT on the receive path alone. -/
def receive (discard : Bool) (n : Nat) (rxq : List Byte) (env : Environment) : Moved (Answer (List Byte)) :=
  let q := rxq ++ env.nextRx.arrivals
  let env' := { env with rx := env.rx.tail }
  if n = 0 then ⟨[], rxq, env, .ok []⟩
  else
    match env.nextRx.fault with
    | some after => ⟨[.rxFail], after, env', .raised .transportFailure⟩
    | none =>
      if n ≤ q.length then ⟨[takenEvent discard (q.take n)], q.drop n, env', .ok (q.take n)⟩
      else ⟨[.rxTimeout q], [], env', .raised .timeout⟩

/-- The outcome of a status receive. -/
def replyOutcome (rev : Rev) (n : Nat) : Answer (List Byte) → TxnOutcome
  | .ok b => (decodeStatus rev n b).outcome
  | .raised k => .err k

/-- State AwaitReply (R143). -/
def reply (c : Cfg) (n : Nat) (rxq : List Byte) (env : Environment) : Moved TxnOutcome :=
  if c.mult = 0 then ⟨[], rxq, env, .okNone⟩
  else
    let r := receive false (statusWireLen c.rev n) rxq env
    ⟨r.events, r.rxq, r.env, replyOutcome c.rev n r.result⟩

/-- State AwaitFirst and what follows it (R142). -/
def discardThenReply (c : Cfg) (n : Nat) (rxq : List Byte) (env : Environment) : Moved TxnOutcome :=
  if c.mult = 2 then
    let r := receive true c.echoLen rxq env
    match r.result with
    | .ok _ => let p := reply c n r.rxq r.env; ⟨r.events ++ p.events, p.rxq, p.env, p.result⟩
    | .raised k => ⟨r.events, r.rxq, r.env, .err k⟩
  else reply c n rxq env

/-- The whole transaction (R140). -/
def transactionMoves (s : State) (n : Nat) (frame : List Byte) : Moved TxnOutcome :=
  let env := { s.env with tx := s.env.tx.tail }
  match s.env.nextTx.fault with
  | some f => ⟨failedEvents frame f.sent, f.rxqAfter, env, .err .transportFailure⟩
  | none =>
    let w := discardThenReply s.cfg n (s.rxq ++ s.env.nextTx.arrivals) env
    ⟨sentEvents frame ++ w.events, w.rxq, w.env, w.result⟩

theorem receive_zero (discard : Bool) (rxq : List Byte) (env : Environment) :
    receive discard 0 rxq env = ⟨[], rxq, env, .ok []⟩ := rfl

theorem receive_taken {n : Nat} {rxq : List Byte} {env : Environment} (discard : Bool) (hn : n ≠ 0)
    (hf : env.nextRx.fault = none) (hq : n ≤ (rxq ++ env.nextRx.arrivals).length) :
    receive discard n rxq env =
      ⟨[takenEvent discard ((rxq ++ env.nextRx.arrivals).take n)], (rxq ++ env.nextRx.arrivals).drop n,
        { env with rx := env.rx.tail }, .ok ((rxq ++ env.nextRx.arrivals).take n)⟩ := by
  simp only [receive, hf]; rw [if_neg hn, if_pos hq]

theorem receive_timeout {n : Nat} {rxq : List Byte} {env : Environment} (discard : Bool)
    (hf : env.nextRx.fault = none) (hq : (rxq ++ env.nextRx.arrivals).length < n) :
    receive discard n rxq env =
      ⟨[.rxTimeout (rxq ++ env.nextRx.arrivals)], [], { env with rx := env.rx.tail }, .raised .timeout⟩ := by
  simp only [receive, hf]; rw [if_neg (by omega), if_neg (by omega)]

theorem receive_fault {n : Nat} {rxq after : List Byte} {env : Environment} (discard : Bool) (hn : n ≠ 0)
    (hf : env.nextRx.fault = some after) :
    receive discard n rxq env = ⟨[.rxFail], after, { env with rx := env.rx.tail }, .raised .transportFailure⟩ := by
  simp only [receive, hf]; rw [if_neg hn]

theorem readExact_eq (discard : Bool) (n : Nat) (s : State) :
    readExact discard n s =
      ({ s with trace := s.trace ++ (receive discard n s.rxq s.env).events, rxq := (receive discard n s.rxq s.env).rxq,
                env := (receive discard n s.rxq s.env).env }, (receive discard n s.rxq s.env).result) := by
  rcases readExact_cases discard n s with ⟨h, e⟩ | ⟨h, hf, hq, e⟩ | ⟨h, hf, hq, e⟩ | ⟨h, after, hf, e⟩ <;> rw [e]
  · simp [receive, h]
  · simp only [receive, hf]; rw [if_neg h, if_pos hq]
  · simp only [receive, hf]; rw [if_neg h, if_neg (by omega)]
  · simp only [receive, hf]; rw [if_neg h]

/-- From AwaitReply to the return. -/
theorem awaitReply_advance (s : State) :
    s.awaitReply.advance =
      { s.dropLatches with
        trace := s.trace ++ (reply s.cfg s.req.n s.rxq s.env).events, rxq := (reply s.cfg s.req.n s.rxq s.env).rxq,
        env := (reply s.cfg s.req.n s.rxq s.env).env, fsm := .idle,
        ret := .outcome (reply s.cfg s.req.n s.rxq s.env).result } := by
  by_cases hm : s.cfg.mult = 0
  · rw [State.awaitReply, if_neg (by simp [hm]), advance_done rfl]
    simp [reply, hm, State.finish, State.returnToCaller, State.dropLatches, Returned.ofOut]
  · rw [State.awaitReply, if_pos hm, readExact_eq]
    simp only [reply, if_neg hm]
    cases h : (receive false (statusWireLen s.cfg.rev s.req.n) s.rxq s.env).result with
    | ok b =>
      dsimp only
      rw [deliver_eq_finish, advance_done rfl]
      simp [replyOutcome, State.finish, State.returnToCaller, State.dropLatches, Returned.ofOut]
    | raised k =>
      dsimp only
      rw [advance_done rfl]
      simp [replyOutcome, State.raise, State.returnToCaller, State.dropLatches, Returned.ofOut]

/-- From AwaitFirst to the return. -/
theorem awaitFirst_advance (s : State) :
    s.awaitFirst.advance.advance =
      { s.dropLatches with
        trace := s.trace ++ (discardThenReply s.cfg s.req.n s.rxq s.env).events,
        rxq := (discardThenReply s.cfg s.req.n s.rxq s.env).rxq,
        env := (discardThenReply s.cfg s.req.n s.rxq s.env).env, fsm := .idle,
        ret := .outcome (discardThenReply s.cfg s.req.n s.rxq s.env).result } := by
  by_cases hm : s.cfg.mult = 2
  · rw [State.awaitFirst, if_pos hm, readExact_eq]
    simp only [discardThenReply, if_pos hm]
    cases h : (receive true s.cfg.echoLen s.rxq s.env).result with
    | ok b =>
      dsimp only
      rw [advance_advance_awaitReply rfl, awaitReply_advance]
      simp [State.dropLatches]
    | raised k =>
      dsimp only
      rw [advance_advance_done rfl]
      simp [State.raise, State.returnToCaller, State.dropLatches, Returned.ofOut]
  · rw [State.awaitFirst, if_neg hm, advance_advance_awaitReply rfl, awaitReply_advance]
    simp only [discardThenReply, if_neg hm]
    simp [State.dropLatches]

/-- A transaction moves what `transactionMoves` says, and nothing else. -/
theorem transaction_eq (s : State) (req : Request) (frame : List Byte) :
    s.transaction req frame =
      s.returned (transactionMoves s req.n frame).events (transactionMoves s req.n frame).rxq
        (transactionMoves s req.n frame).env (transactionMoves s req.n frame).result := by
  unfold State.transaction
  cases h : s.env.nextTx.fault with
  | some f =>
    rw [sendRequest_failed (f := f) (by simpa using h), runToReturn_done rfl]
    simp [transactionMoves, h, State.returnToCaller, State.dropLatches, State.returned, Returned.ofOut]
  | none =>
    rw [sendRequest_sent (by simpa using h), runToReturn_awaitFirst rfl, awaitFirst_advance]
    simp [transactionMoves, h, State.dropLatches, State.returned]

end Sys2Proof.Laws
end

