-- ==== Sys2Proof/Laws/Step.lean ====
section
/-! SUPPORT. What one step does, by the state of the sequencer, and a run unfolded by one step. -/

namespace Sys2Proof.Laws

open Sys2Proof.Machine

theorem run_succ (M : Host.Core) (k : Nat) (s : M.State) :
    M.run (k + 1) s =
      (match M.step s with
        | .next t => M.run k t
        | .fault r => .fault r
        | .refused r => .refused r) := Host.Core.run.eq_2 M s k

theorem step_of_idle {s : State} (h : s.fsm = .idle) : step s = s.arrive.issue := by simp [step, h]

/-- Where the environment lists nothing, nothing arrives. -/
theorem arrive_of_none {s : State} (h : s.env.between = []) : s.arrive = s := by
  obtain ⟨_, _, _, _, _, _, _, _, _, _, _, ⟨_, _, _, _⟩, _⟩ := s
  cases h
  simp [State.arrive, Environment.arriving]

/-- With nothing pending a step lets the bytes that arrive in. -/
theorem step_of_waiting {s : State} (h : s.fsm = .idle) (hp : s.pending = []) : step s = .next s.arrive := by
  simp [step_of_idle h, State.issue, hp]

/-- With an operation pending a step executes what the command stands for. -/
theorem step_of_pending {s : State} {c : Command} {rest : List Command} {i : Instr} (h : s.fsm = .idle)
    (hp : s.pending = c :: rest) (hc : c.instr s.cfg.rev = .ok i) : step s = exec i { s.arrive with pending := rest } := by
  simp [step_of_idle h, State.issue, hp, hc]

/-- What a command that stands for no operation is refused as. -/
theorem step_of_refused {s : State} {c : Command} {rest : List Command} {why : Refusal} (h : s.Ready)
    (hp : s.pending = c :: rest) (hc : c.instr s.cfg.rev = .error why) : step s = .refused why := by
  simp [step_of_idle h.2, State.issue, hp, hc, whenAdmitted_of_ready (show s.arrive.Ready from h)]

/-- An unbound PPE names NotBound first, whatever the command. -/
theorem step_of_refused_unbound {s : State} {c : Command} {rest : List Command} {why : Refusal} (h : s.fsm = .idle)
    (hb : s.bound = false) (hp : s.pending = c :: rest) (hc : c.instr s.cfg.rev = .error why) :
    step s = .refused .notBound := by
  simp [step_of_idle h, State.issue, hp, hc, whenAdmitted_of_unbound (show s.arrive.bound = false from hb)]

theorem step_of_running {s : State} (h : s.fsm ≠ .idle) : step s = .next s.advance := by
  unfold step
  split
  · contradiction
  · rfl

/-- A run whose first step goes on. -/
theorem core_run_next {s t : State} (k : Nat) (h : step s = .next t) : Sys2Proof.core.run (k + 1) s = Sys2Proof.core.run k t := by
  have h' : Sys2Proof.core.step s = .next t := h
  exact (run_succ Sys2Proof.core k s).trans (by rw [h'])

end Sys2Proof.Laws
end

