-- ==== Sys2Proof/Laws/Exec.lean ====
section
/-! SUPPORT. `exec` of each instruction as an admitted operation, and everything an instruction that goes on can have done. -/

namespace Sys2Proof.Laws

open Sys2Proof.Machine

/-! ### One equation per instruction: admission, then its own effect -/

theorem exec_construct (ch dl : Handle) (rev : Rev) (mult : BitVec 2) (echo : Nat) (tmo : TimeoutToken) (maxp : Nat) (s : State) :
    exec (.construct ch dl rev mult echo tmo maxp) s =
      if s.bound then .refused .busy
      else if mult = 3 then .refused .badConfiguration
      else .next (s.constructed { rev := rev, mult := mult, echoLen := echo, timeout := tmo, maxPacket := maxp }) := rfl
theorem exec_teardown (s : State) :
    exec .teardown s = s.whenAdmitted fun s => .next { s with bound := false, ret := .unit } := rfl
theorem exec_transact (id : Byte) (instr : WireInstr) (params : List Byte) (n : Nat) (s : State) :
    exec (.transact id instr params n) s = s.whenAdmitted (transactAdmitted id instr params n) := rfl
theorem exec_ping (id : Byte) (s : State) : exec (.ping id) s = exec (.transact id .ping [] 0) s := rfl
theorem exec_read (id : Byte) (address length : Nat) (s : State) :
    exec (.read id address length) s = s.whenAdmitted fun s =>
      if !readFits s.cfg.rev address length then .refused .operandOutOfRange
      else exec (.transact id .read (readParams s.cfg.rev address length) length) s := rfl
theorem exec_write (id : Byte) (address : Nat) (data : List Byte) (s : State) :
    exec (.write id address data) s = s.whenAdmitted fun s =>
      if !writeFits s.cfg.rev address data.length then .refused .operandOutOfRange
      else exec (.transact id .write (writeParams s.cfg.rev address data) 0) s := rfl
theorem exec_v1Status (id err : Byte) (params : List Byte) (check : Byte) (n : Nat) (s : State) :
    exec (.v1Status id err params check n) s = s.whenAdmitted fun s =>
      if params.length > maxStatusParams .v1 then .refused .lengthFieldOverflow
      else .next (s.give (.decoded (decodeStatus s.cfg.rev n (v1StatusBytes id err params check)))) := rfl
theorem exec_v2Status (id instr err : Byte) (params : List Byte) (check : Word) (n : Nat) (s : State) :
    exec (.v2Status id instr err params check n) s = s.whenAdmitted fun s =>
      if params.length > maxStatusParams .v2 then .refused .lengthFieldOverflow
      else .next (s.give (.decoded (decodeStatus s.cfg.rev n (v2StatusBytes id instr err params check)))) := rfl
theorem exec_encodeRequestV1 (id : Byte) (instr : WireInstr) (params : List Byte) (s : State) :
    exec (.encodeRequestV1 id instr params) s =
      s.onRevision .v1 fun s => s.giveBytes (encodeRequest .v1 s.cfg.maxPacket id instr params) := rfl
theorem exec_encodeRequestV2 (id : Byte) (instr : WireInstr) (params : List Byte) (s : State) :
    exec (.encodeRequestV2 id instr params) s =
      s.onRevision .v2 fun s => s.giveBytes (encodeRequest .v2 s.cfg.maxPacket id instr params) := rfl
theorem exec_encodeStatusV1 (id err : Byte) (params : List Byte) (s : State) :
    exec (.encodeStatusV1 id err params) s = s.onRevision .v1 fun s => s.giveBytes (encodeStatus .v1 id err params) := rfl
theorem exec_encodeStatusV2 (id err : Byte) (params : List Byte) (s : State) :
    exec (.encodeStatusV2 id err params) s = s.onRevision .v2 fun s => s.giveBytes (encodeStatus .v2 id err params) := rfl
theorem exec_decodeStatusV1 (n : Nat) (b : List Byte) (s : State) :
    exec (.decodeStatusV1 n b) s = s.answerOn .v1 (.decoded (decodeStatusV1 n b)) := rfl
theorem exec_decodeStatusV2 (n : Nat) (b : List Byte) (s : State) :
    exec (.decodeStatusV2 n b) s = s.answerOn .v2 (.decoded (decodeStatusV2 n b)) := rfl
theorem exec_stuff (b : List Byte) (s : State) : exec (.stuff b) s = s.answer (.bytes (stuff b)) := rfl
theorem exec_unstuffTake (w : List Byte) (k : Nat) (s : State) :
    exec (.unstuffTake w k) s = s.answer (.taken (unstuffTake w k)) := rfl
theorem exec_chk8 (b : List Byte) (s : State) : exec (.chk8 b) s = s.answerOn .v1 (.check (.v1 (chk8 b))) := rfl
theorem exec_crc16 (b : List Byte) (s : State) : exec (.crc16 b) s = s.answerOn .v2 (.check (.v2 (crc16 b))) := rfl
theorem exec_crc16OfBody (body wbody : List Byte) (s : State) :
    exec (.crc16OfBody body wbody) s = s.answerOn .v2 (.check (.v2 (crc16OfBody switches body wbody))) := rfl
theorem exec_verify (v : VerifyOperands) (s : State) : exec (.verify v) s = s.answerOn (operandsRev v) (.bool (verify switches v)) := rfl
theorem exec_compute (r : CheckedRange) (s : State) : exec (.compute r) s = s.answerOn (rangeRev r) (.check (compute switches r)) := rfl
theorem exec_writeFrame (b : List Byte) (s : State) :
    exec (.writeFrame b) s = s.whenAdmitted fun s =>
      if b.length > s.cfg.maxPacket then .refused .packetTooLong
      else
        match writeFrame b s with
        | (s', .ok _) => .next (s'.give .unit)
        | (s', .raised k) => .next (s'.give (.raised k)) := rfl
theorem exec_readExact (n : Nat) (s : State) :
    exec (.readExact n) s = s.whenAdmitted fun s =>
      match readExact false n s with
      | (s', .ok b) => .next (s'.give (.bytes b))
      | (s', .raised k) => .next (s'.give (.raised k)) := rfl

/-! ### What each kind of operation needs to go on, and leaves -/

theorem answer_eq_next {s t : State} {v : Returned} (h : s.answer v = .next t) : s.Ready ∧ t = s.give v := by
  obtain ⟨hr, hx⟩ := whenAdmitted_eq_next h
  cases hx
  exact ⟨hr, rfl⟩

theorem answerOn_eq_next {s t : State} {rev : Rev} {v : Returned} (h : s.answerOn rev v = .next t) :
    s.Ready ∧ s.cfg.rev = rev ∧ t = s.give v := by
  obtain ⟨hr, hv, hx⟩ := onRevision_eq_next h
  cases hx
  exact ⟨hr, hv, rfl⟩

theorem giveBytes_eq_next {s t : State} {rev : Rev} {f : State → Except Refusal (List Byte)}
    (h : (s.onRevision rev fun s => s.giveBytes (f s)) = .next t) :
    s.Ready ∧ s.cfg.rev = rev ∧ ∃ b, f s = .ok b ∧ t = s.give (.bytes b) := by
  obtain ⟨hr, hv, hx⟩ := onRevision_eq_next h
  unfold State.giveBytes at hx
  split at hx
  · cases hx
  · cases hx; exact ⟨hr, hv, _, ‹_›, rfl⟩

/-- A refusal in front of an operation that goes on did not apply. -/
theorem guarded_eq_next {s t : State} {refuse : State → Bool} {r : Refusal} {run : State → Host.Outcome State Fault Refusal}
    (h : (s.whenAdmitted fun s => if refuse s then .refused r else run s) = .next t) :
    s.Ready ∧ refuse s = false ∧ run s = .next t := by
  obtain ⟨hr, hx⟩ := whenAdmitted_eq_next h
  split at hx
  · cases hx
  · rename_i hn
    exact ⟨hr, by simpa using hn, hx⟩

theorem requestOn_eq_next {rev : Rev} {instr : WireInstr} {id : Byte} {params : List Byte} {n : Nat} {s t : State}
    (h : requestOn rev instr id params n s = .next t) :
    s.cfg.rev = rev ∧ exec (.transact id instr params n) s = .next t := by
  obtain ⟨hr, hv, hx⟩ := onRevision_eq_next h
  exact ⟨hv, by rw [exec_transact, whenAdmitted_of_ready hr]; exact hx⟩

theorem exec_read_eq_next {id : Byte} {address length : Nat} {s t : State} (h : exec (.read id address length) s = .next t) :
    exec (.transact id .read (readParams s.cfg.rev address length) length) s = .next t := by
  rw [exec_read] at h
  exact (guarded_eq_next h).2.2

theorem exec_write_eq_next {id : Byte} {address : Nat} {data : List Byte} {s t : State}
    (h : exec (.write id address data) s = .next t) :
    exec (.transact id .write (writeParams s.cfg.rev address data) 0) s = .next t := by
  rw [exec_write] at h
  exact (guarded_eq_next h).2.2

/-! ### Everything an instruction that goes on can have done -/

/-- The six ways to a next state. -/
inductive Did (s : State) : Instr → State → Prop
  | constructed {ch dl : Handle} {cfg : Cfg} (free : s.bound = false) (legal : cfg.mult ≠ 3) :
      Did s (.construct ch dl cfg.rev cfg.mult cfg.echoLen cfg.timeout cfg.maxPacket) (s.constructed cfg)
  | unbound (ready : s.Ready) : Did s .teardown { s with bound := false, ret := .unit }
  | gave {i : Instr} (ready : s.Ready) (plain : isConstruct i = false ∧ i ≠ .teardown) (v : Returned) : Did s i (s.give v)
  | wrote {b : List Byte} (ready : s.Ready) (fits : b.length ≤ s.cfg.maxPacket) (v : Returned) :
      Did s (.writeFrame b) ((writeFrame b s).1.give v)
  | received {n : Nat} (ready : s.Ready) (v : Returned) : Did s (.readExact n) ((readExact false n s).1.give v)
  | transacted {i : Instr} {id : Byte} {instr : WireInstr} {params : List Byte} {n : Nat} (admits : s.Admits id instr params n)
      (plain : isConstruct i = false ∧ i ≠ .teardown) :
      Did s i (s.transaction { id := id, instr := instr, params := params, n := n } (requestFrame s.cfg.rev id instr params))

theorem did_of_transact {i : Instr} {s t : State} {id : Byte} {instr : WireInstr} {params : List Byte} {n : Nat}
    (h : exec (.transact id instr params n) s = .next t) (plain : isConstruct i = false ∧ i ≠ .teardown) : Did s i t := by
  obtain ⟨ha, rfl⟩ := exec_transact_eq_next h
  exact .transacted ha plain

theorem did_of_request {rev : Rev} {instr : WireInstr} {id : Byte} {params : List Byte} {n : Nat} {s t : State}
    (h : exec (Instr.request rev instr id params n) s = .next t) : Did s (Instr.request rev instr id params n) t := by
  rw [exec_request] at h
  refine did_of_transact (requestOn_eq_next h).2 ?_
  cases rev <;> cases instr <;> simp [Instr.request, isConstruct]

theorem did_of_answer {i : Instr} {s t : State} {v : Returned} (h : s.answer v = .next t)
    (plain : isConstruct i = false ∧ i ≠ .teardown) : Did s i t := by
  obtain ⟨hr, rfl⟩ := answer_eq_next h
  exact .gave hr plain v

theorem did_of_answerOn {i : Instr} {s t : State} {rev : Rev} {v : Returned} (h : s.answerOn rev v = .next t)
    (plain : isConstruct i = false ∧ i ≠ .teardown) : Did s i t := by
  obtain ⟨hr, _, rfl⟩ := answerOn_eq_next h
  exact .gave hr plain v

theorem did_of_giveBytes {i : Instr} {s t : State} {rev : Rev} {f : State → Except Refusal (List Byte)}
    (h : (s.onRevision rev fun s => s.giveBytes (f s)) = .next t) (plain : isConstruct i = false ∧ i ≠ .teardown) : Did s i t := by
  obtain ⟨hr, _, b, _, rfl⟩ := giveBytes_eq_next h
  exact .gave hr plain (.bytes b)

/-- The inversion of `exec`. -/
theorem did_of_exec {i : Instr} {s t : State} (h : exec i s = .next t) : Did s i t := by
  cases i
  case construct ch dl rev mult echo tmo maxp =>
    rw [exec_construct] at h
    split at h
    · cases h
    · split at h
      · cases h
      · cases h
        exact .constructed (cfg := { rev := rev, mult := mult, echoLen := echo, timeout := tmo, maxPacket := maxp })
          (by simpa using ‹¬s.bound = true›) ‹_›
  case teardown =>
    rw [exec_teardown] at h
    obtain ⟨hr, hx⟩ := whenAdmitted_eq_next h
    cases hx
    exact .unbound hr
  case transact => exact did_of_transact h ⟨rfl, by simp⟩
  case ping => exact did_of_transact ((exec_ping _ _).symm.trans h) ⟨rfl, by simp⟩
  case read => exact did_of_transact (exec_read_eq_next h) ⟨rfl, by simp⟩
  case write => exact did_of_transact (exec_write_eq_next h) ⟨rfl, by simp⟩
  case writeFrame b =>
    rw [exec_writeFrame] at h
    obtain ⟨hr, hx⟩ := whenAdmitted_eq_next h
    split at hx
    · cases hx
    · have hb : b.length ≤ s.cfg.maxPacket := by omega
      split at hx
      all_goals
        rename_i he
        cases hx
      · have w := Did.wrote hr hb .unit
        rwa [he] at w
      · have w := Did.wrote hr hb (.raised ‹_›)
        rwa [he] at w
  case readExact n =>
    rw [exec_readExact] at h
    obtain ⟨hr, hx⟩ := whenAdmitted_eq_next h
    split at hx
    all_goals
      rename_i he
      cases hx
    · have w := Did.received (n := n) hr (.bytes ‹_›)
      rwa [he] at w
    · have w := Did.received (n := n) hr (.raised ‹_›)
      rwa [he] at w
  case v1Status id err params check n =>
    rw [exec_v1Status] at h
    obtain ⟨hr, hx⟩ := whenAdmitted_eq_next h
    split at hx
    · cases hx
    · cases hx; exact .gave hr ⟨rfl, by simp⟩ _
  case v2Status id instr err params check n =>
    rw [exec_v2Status] at h
    obtain ⟨hr, hx⟩ := whenAdmitted_eq_next h
    split at hx
    · cases hx
    · cases hx; exact .gave hr ⟨rfl, by simp⟩ _
  case encodeRequestV1 => exact did_of_giveBytes ((exec_encodeRequestV1 _ _ _ _).symm.trans h) ⟨rfl, by simp⟩
  case encodeRequestV2 => exact did_of_giveBytes ((exec_encodeRequestV2 _ _ _ _).symm.trans h) ⟨rfl, by simp⟩
  case encodeStatusV1 =>
    exact did_of_giveBytes (f := fun _ => encodeStatus _ _ _ _) ((exec_encodeStatusV1 _ _ _ _).symm.trans h) ⟨rfl, by simp⟩
  case encodeStatusV2 =>
    exact did_of_giveBytes (f := fun _ => encodeStatus _ _ _ _) ((exec_encodeStatusV2 _ _ _ _).symm.trans h) ⟨rfl, by simp⟩
  case decodeStatusV1 => exact did_of_answerOn ((exec_decodeStatusV1 _ _ _).symm.trans h) ⟨rfl, by simp⟩
  case decodeStatusV2 => exact did_of_answerOn ((exec_decodeStatusV2 _ _ _).symm.trans h) ⟨rfl, by simp⟩
  case stuff => exact did_of_answer ((exec_stuff _ _).symm.trans h) ⟨rfl, by simp⟩
  case unstuffTake => exact did_of_answer ((exec_unstuffTake _ _ _).symm.trans h) ⟨rfl, by simp⟩
  case chk8 => exact did_of_answerOn ((exec_chk8 _ _).symm.trans h) ⟨rfl, by simp⟩
  case crc16 => exact did_of_answerOn ((exec_crc16 _ _).symm.trans h) ⟨rfl, by simp⟩
  case crc16OfBody => exact did_of_answerOn ((exec_crc16OfBody _ _ _).symm.trans h) ⟨rfl, by simp⟩
  case verify => exact did_of_answerOn ((exec_verify _ _).symm.trans h) ⟨rfl, by simp⟩
  case compute => exact did_of_answerOn ((exec_compute _ _).symm.trans h) ⟨rfl, by simp⟩
  case v1Ping => exact did_of_request (rev := .v1) (instr := .ping) h
  case v1Read => exact did_of_request (rev := .v1) (instr := .read) h
  case v1Write => exact did_of_request (rev := .v1) (instr := .write) h
  case v1RegisteredWrite => exact did_of_request (rev := .v1) (instr := .registeredWrite) h
  case v1TriggerAction => exact did_of_request (rev := .v1) (instr := .triggerAction) h
  case v1FactoryReset => exact did_of_request (rev := .v1) (instr := .factoryReset) h
  case v1Reboot => exact did_of_request (rev := .v1) (instr := .reboot) h
  case v1Clear => exact did_of_request (rev := .v1) (instr := .clear) h
  case v1ControlTableBackup => exact did_of_request (rev := .v1) (instr := .controlTableBackup) h
  case v1StatusReturn => exact did_of_request (rev := .v1) (instr := .statusReturn) h
  case v1SyncRead => exact did_of_request (rev := .v1) (instr := .syncRead) h
  case v1SyncWrite => exact did_of_request (rev := .v1) (instr := .syncWrite) h
  case v1FastSyncRead => exact did_of_request (rev := .v1) (instr := .fastSyncRead) h
  case v1BulkRead => exact did_of_request (rev := .v1) (instr := .bulkRead) h
  case v1BulkWrite => exact did_of_request (rev := .v1) (instr := .bulkWrite) h
  case v1FastBulkRead => exact did_of_request (rev := .v1) (instr := .fastBulkRead) h
  case v2Ping => exact did_of_request (rev := .v2) (instr := .ping) h
  case v2Read => exact did_of_request (rev := .v2) (instr := .read) h
  case v2Write => exact did_of_request (rev := .v2) (instr := .write) h
  case v2RegisteredWrite => exact did_of_request (rev := .v2) (instr := .registeredWrite) h
  case v2TriggerAction => exact did_of_request (rev := .v2) (instr := .triggerAction) h
  case v2FactoryReset => exact did_of_request (rev := .v2) (instr := .factoryReset) h
  case v2Reboot => exact did_of_request (rev := .v2) (instr := .reboot) h
  case v2Clear => exact did_of_request (rev := .v2) (instr := .clear) h
  case v2ControlTableBackup => exact did_of_request (rev := .v2) (instr := .controlTableBackup) h
  case v2StatusReturn => exact did_of_request (rev := .v2) (instr := .statusReturn) h
  case v2SyncRead => exact did_of_request (rev := .v2) (instr := .syncRead) h
  case v2SyncWrite => exact did_of_request (rev := .v2) (instr := .syncWrite) h
  case v2FastSyncRead => exact did_of_request (rev := .v2) (instr := .fastSyncRead) h
  case v2BulkRead => exact did_of_request (rev := .v2) (instr := .bulkRead) h
  case v2BulkWrite => exact did_of_request (rev := .v2) (instr := .bulkWrite) h
  case v2FastBulkRead => exact did_of_request (rev := .v2) (instr := .fastBulkRead) h

end Sys2Proof.Laws
end

