-- ==== Sys2Proof/Laws/PerInstr.lean ====
section
/-! SUPPORT. One lemma per instruction about its syntax: an instruction that is a frame is encoded as the marker of its revision
and a rest, and every other instruction has no encoding (R60, R65, R81). -/

namespace Sys2Proof.Laws

open Sys2Proof.Machine

/-- What the encoder gives an instruction: the bytes of its frame, which open with the marker, or nothing. -/
def FrameForm.Statement (i : Instr) : Prop :=
  (i.wireFrame = none ∧ encode i = none) ∨
  ∃ f rest, i.wireFrame = some f ∧ encode i = some (marker f.rev ++ rest)

theorem bytes_open_with_marker (f : WireFrame) : ∃ rest, f.bytes = marker f.rev ++ rest := by
  cases f with
  | request rev instr id params n =>
    cases rev
    · exact ⟨_, by rw [WireFrame.bytes, requestFrame, requestFrameWith, v1Frame, List.append_assoc]; rfl⟩
    · exact ⟨_, by rw [WireFrame.bytes, requestFrame, requestFrameWith, v2Frame, List.append_assoc]; rfl⟩
  | v1Status id err params check n => exact ⟨_, by rw [WireFrame.bytes, v1StatusBytes, List.append_assoc]; rfl⟩
  | v2Status id instr err params check n => exact ⟨_, by rw [WireFrame.bytes, v2StatusBytes, List.append_assoc]; rfl⟩

theorem frameForm (i : Instr) : FrameForm.Statement i := by
  cases h : i.wireFrame with
  | none => exact .inl ⟨h, by simp [encode, h]⟩
  | some f =>
    obtain ⟨rest, hr⟩ := bytes_open_with_marker f
    exact .inr ⟨f, rest, h, by simp [encode, h, hr]⟩

theorem FrameForm.v1Ping (id : Byte) (params : List Byte) (n : Nat) : FrameForm.Statement (.v1Ping id params n) := frameForm _
theorem FrameForm.v1Read (id : Byte) (params : List Byte) (n : Nat) : FrameForm.Statement (.v1Read id params n) := frameForm _
theorem FrameForm.v1Write (id : Byte) (params : List Byte) (n : Nat) : FrameForm.Statement (.v1Write id params n) := frameForm _
theorem FrameForm.v1RegisteredWrite (id : Byte) (params : List Byte) (n : Nat) : FrameForm.Statement (.v1RegisteredWrite id params n) := frameForm _
theorem FrameForm.v1TriggerAction (id : Byte) (params : List Byte) (n : Nat) : FrameForm.Statement (.v1TriggerAction id params n) := frameForm _
theorem FrameForm.v1FactoryReset (id : Byte) (params : List Byte) (n : Nat) : FrameForm.Statement (.v1FactoryReset id params n) := frameForm _
theorem FrameForm.v1Reboot (id : Byte) (params : List Byte) (n : Nat) : FrameForm.Statement (.v1Reboot id params n) := frameForm _
theorem FrameForm.v1Clear (id : Byte) (params : List Byte) (n : Nat) : FrameForm.Statement (.v1Clear id params n) := frameForm _
theorem FrameForm.v1ControlTableBackup (id : Byte) (params : List Byte) (n : Nat) : FrameForm.Statement (.v1ControlTableBackup id params n) := frameForm _
theorem FrameForm.v1StatusReturn (id : Byte) (params : List Byte) (n : Nat) : FrameForm.Statement (.v1StatusReturn id params n) := frameForm _
theorem FrameForm.v1SyncRead (id : Byte) (params : List Byte) (n : Nat) : FrameForm.Statement (.v1SyncRead id params n) := frameForm _
theorem FrameForm.v1SyncWrite (id : Byte) (params : List Byte) (n : Nat) : FrameForm.Statement (.v1SyncWrite id params n) := frameForm _
theorem FrameForm.v1FastSyncRead (id : Byte) (params : List Byte) (n : Nat) : FrameForm.Statement (.v1FastSyncRead id params n) := frameForm _
theorem FrameForm.v1BulkRead (id : Byte) (params : List Byte) (n : Nat) : FrameForm.Statement (.v1BulkRead id params n) := frameForm _
theorem FrameForm.v1BulkWrite (id : Byte) (params : List Byte) (n : Nat) : FrameForm.Statement (.v1BulkWrite id params n) := frameForm _
theorem FrameForm.v1FastBulkRead (id : Byte) (params : List Byte) (n : Nat) : FrameForm.Statement (.v1FastBulkRead id params n) := frameForm _
theorem FrameForm.v2Ping (id : Byte) (params : List Byte) (n : Nat) : FrameForm.Statement (.v2Ping id params n) := frameForm _
theorem FrameForm.v2Read (id : Byte) (params : List Byte) (n : Nat) : FrameForm.Statement (.v2Read id params n) := frameForm _
theorem FrameForm.v2Write (id : Byte) (params : List Byte) (n : Nat) : FrameForm.Statement (.v2Write id params n) := frameForm _
theorem FrameForm.v2RegisteredWrite (id : Byte) (params : List Byte) (n : Nat) : FrameForm.Statement (.v2RegisteredWrite id params n) := frameForm _
theorem FrameForm.v2TriggerAction (id : Byte) (params : List Byte) (n : Nat) : FrameForm.Statement (.v2TriggerAction id params n) := frameForm _
theorem FrameForm.v2FactoryReset (id : Byte) (params : List Byte) (n : Nat) : FrameForm.Statement (.v2FactoryReset id params n) := frameForm _
theorem FrameForm.v2Reboot (id : Byte) (params : List Byte) (n : Nat) : FrameForm.Statement (.v2Reboot id params n) := frameForm _
theorem FrameForm.v2Clear (id : Byte) (params : List Byte) (n : Nat) : FrameForm.Statement (.v2Clear id params n) := frameForm _
theorem FrameForm.v2ControlTableBackup (id : Byte) (params : List Byte) (n : Nat) : FrameForm.Statement (.v2ControlTableBackup id params n) := frameForm _
theorem FrameForm.v2StatusReturn (id : Byte) (params : List Byte) (n : Nat) : FrameForm.Statement (.v2StatusReturn id params n) := frameForm _
theorem FrameForm.v2SyncRead (id : Byte) (params : List Byte) (n : Nat) : FrameForm.Statement (.v2SyncRead id params n) := frameForm _
theorem FrameForm.v2SyncWrite (id : Byte) (params : List Byte) (n : Nat) : FrameForm.Statement (.v2SyncWrite id params n) := frameForm _
theorem FrameForm.v2FastSyncRead (id : Byte) (params : List Byte) (n : Nat) : FrameForm.Statement (.v2FastSyncRead id params n) := frameForm _
theorem FrameForm.v2BulkRead (id : Byte) (params : List Byte) (n : Nat) : FrameForm.Statement (.v2BulkRead id params n) := frameForm _
theorem FrameForm.v2BulkWrite (id : Byte) (params : List Byte) (n : Nat) : FrameForm.Statement (.v2BulkWrite id params n) := frameForm _
theorem FrameForm.v2FastBulkRead (id : Byte) (params : List Byte) (n : Nat) : FrameForm.Statement (.v2FastBulkRead id params n) := frameForm _
theorem FrameForm.v1Status (id err : Byte) (params : List Byte) (check : Byte) (n : Nat) : FrameForm.Statement (.v1Status id err params check n) := frameForm _
theorem FrameForm.v2Status (id instr err : Byte) (params : List Byte) (check : Word) (n : Nat) : FrameForm.Statement (.v2Status id instr err params check n) := frameForm _
theorem FrameForm.construct (channel dirline : Handle) (rev : Rev) (mult : BitVec 2) (echoLen : Nat) (timeout : TimeoutToken) (maxPacket : Nat) : FrameForm.Statement (.construct channel dirline rev mult echoLen timeout maxPacket) := frameForm _
theorem FrameForm.teardown : FrameForm.Statement (.teardown) := frameForm _
theorem FrameForm.ping (id : Byte) : FrameForm.Statement (.ping id) := frameForm _
theorem FrameForm.read (id : Byte) (address length : Nat) : FrameForm.Statement (.read id address length) := frameForm _
theorem FrameForm.write (id : Byte) (address : Nat) (data : List Byte) : FrameForm.Statement (.write id address data) := frameForm _
theorem FrameForm.transact (id : Byte) (instr : WireInstr) (params : List Byte) (n : Nat) : FrameForm.Statement (.transact id instr params n) := frameForm _
theorem FrameForm.encodeRequestV1 (id : Byte) (instr : WireInstr) (params : List Byte) : FrameForm.Statement (.encodeRequestV1 id instr params) := frameForm _
theorem FrameForm.encodeRequestV2 (id : Byte) (instr : WireInstr) (params : List Byte) : FrameForm.Statement (.encodeRequestV2 id instr params) := frameForm _
theorem FrameForm.encodeStatusV1 (id err : Byte) (params : List Byte) : FrameForm.Statement (.encodeStatusV1 id err params) := frameForm _
theorem FrameForm.encodeStatusV2 (id err : Byte) (params : List Byte) : FrameForm.Statement (.encodeStatusV2 id err params) := frameForm _
theorem FrameForm.decodeStatusV1 (n : Nat) (bytes : List Byte) : FrameForm.Statement (.decodeStatusV1 n bytes) := frameForm _
theorem FrameForm.decodeStatusV2 (n : Nat) (bytes : List Byte) : FrameForm.Statement (.decodeStatusV2 n bytes) := frameForm _
theorem FrameForm.stuff (body : List Byte) : FrameForm.Statement (.stuff body) := frameForm _
theorem FrameForm.unstuffTake (wire : List Byte) (k : Nat) : FrameForm.Statement (.unstuffTake wire k) := frameForm _
theorem FrameForm.chk8 (range : List Byte) : FrameForm.Statement (.chk8 range) := frameForm _
theorem FrameForm.crc16 (range : List Byte) : FrameForm.Statement (.crc16 range) := frameForm _
theorem FrameForm.crc16OfBody (body wbody : List Byte) : FrameForm.Statement (.crc16OfBody body wbody) := frameForm _
theorem FrameForm.verify (operands : VerifyOperands) : FrameForm.Statement (.verify operands) := frameForm _
theorem FrameForm.compute (range : CheckedRange) : FrameForm.Statement (.compute range) := frameForm _
theorem FrameForm.writeFrame (bytes : List Byte) : FrameForm.Statement (.writeFrame bytes) := frameForm _
theorem FrameForm.readExact (n : Nat) : FrameForm.Statement (.readExact n) := frameForm _

end Sys2Proof.Laws
end

