-- ==== Sys2Proof/Tests/Slice0.lean ====
section
/-! SUPPORT. The model's own tests. Expected values are the vectors of `95_test_vectors.md` and the examples of the rules, or
frames written out by hand from the layouts R61 to R64; never the model's own answer. The second half are witnesses: for
every statement with hypotheses, a concrete state and operands that meet them. -/

namespace Sys2Proof.Tests

set_option Elab.async false

open Sys2Proof.Machine Sys2Proof.Laws

/-! ### Helpers -/

/-- A bound connection with the scripted transport of R134: RXQ preloaded with `q`, no answer planned. -/
def conn (rev : Rev) (mult : BitVec 2) (echo : Nat) (q : List Byte) : State :=
  { State.reset with
    bound := true, cfg := { rev := rev, mult := mult, echoLen := echo, timeout := { token := 0 }, maxPacket := 64 }, rxq := q }

/-- A connection that expects no reply. -/
def quiet (rev : Rev) : State := conn rev 0 0 []

/-- The next state, if the operation has one. -/
def nextOf (o : Host.Outcome State Fault Refusal) : Option State :=
  match o with
  | .next s => some s
  | .fault f => nomatch f
  | .refused _ => none

/-- The refusal, if it is one. -/
def refusalOf (o : Host.Outcome State Fault Refusal) : Option Refusal :=
  match o with
  | .next _ => none
  | .fault f => nomatch f
  | .refused r => some r

/-- What the operation returned to its caller. -/
def retOf (o : Host.Outcome State Fault Refusal) : Option Returned := (nextOf o).map State.ret

/-- What TXTRACE holds afterwards. -/
def traceOf (o : Host.Outcome State Fault Refusal) : Option (List Event) := (nextOf o).map State.trace

/-- The bytes on the line afterwards, in order. -/
def sent (o : Host.Outcome State Fault Refusal) : List Byte :=
  match nextOf o with
  | none => []
  | some s => s.trace.filterMap fun e => match e with | .tx b => some b | _ => none

/-- Returned value and RXQ, the two columns of the tables of 95. -/
def result (o : Host.Outcome State Fault Refusal) : Option (Returned × List Byte) := (nextOf o).map fun s => (s.ret, s.rxq)

theorem next_of_nextOf {o : Host.Outcome State Fault Refusal} (h : (nextOf o).isSome) : ∃ t, o = .next t := by
  cases o with
  | next s => exact ⟨s, rfl⟩
  | fault f => exact nomatch f
  | refused r => exact absurd h (by simp [nextOf])

/-- `n` zero bytes. -/
def zeros (n : Nat) : List Byte := List.replicate n 0

@[simp] theorem zeros_length (n : Nat) : (zeros n).length = n := List.length_replicate

/-! ### WellFormed refuses, one ill-formed term for each check -/

theorem test_ill_v1_request : ¬ WellFormed (.v1Ping 0x01 (zeros 254) 0) := by decide +kernel
theorem test_ill_v1_expected : ¬ WellFormed (.v1Read 0x01 [] 254) := by decide +kernel
theorem test_ill_v2_request : ¬ WellFormed (.v2Write 0x01 (zeros 65533) 0) := by
  simp [WellFormed, Instr.wellFormed, requestFits, maxRequestParams]
theorem test_ill_v2_expected : ¬ WellFormed (.v2Read 0x01 [] 65532) := by decide +kernel
theorem test_ill_transact : ¬ WellFormed (.transact 0x01 .ping [] 65532) := by decide +kernel
theorem test_ill_v1_status : ¬ WellFormed (.v1Status 0x01 0x00 (zeros 254) 0x00 0) := by decide +kernel
theorem test_ill_v2_status : ¬ WellFormed (.v2Status 0x01 0x55 0x00 (zeros 65532) 0x0000 0) := by
  simp [WellFormed, Instr.wellFormed, maxStatusParams]
theorem test_ill_construct : ¬ WellFormed (.construct ⟨0⟩ ⟨0⟩ .v1 3 0 ⟨0⟩ 64) := by decide +kernel
theorem test_ill_read_address : ¬ WellFormed (.read 0x01 0x10000 1) := by decide +kernel
theorem test_ill_read_length : ¬ WellFormed (.read 0x01 0 65532) := by decide +kernel
theorem test_ill_write_address : ¬ WellFormed (.write 0x01 0x10000 []) := by decide +kernel
theorem test_ill_write_data : ¬ WellFormed (.write 0x01 0 (zeros 65531)) := by
  simp [WellFormed, Instr.wellFormed, writeFits, maxWriteData]
theorem test_ill_encode_request_v1 : ¬ WellFormed (.encodeRequestV1 0x01 .read (zeros 254)) := by decide +kernel
theorem test_ill_encode_request_v2 : ¬ WellFormed (.encodeRequestV2 0x01 .read (zeros 65533)) := by
  simp [WellFormed, Instr.wellFormed, maxRequestParams]
theorem test_ill_encode_status_v1 : ¬ WellFormed (.encodeStatusV1 0x01 0x00 (zeros 254)) := by decide +kernel
theorem test_ill_encode_status_v2 : ¬ WellFormed (.encodeStatusV2 0x01 0x00 (zeros 65532)) := by
  simp [WellFormed, Instr.wellFormed, maxStatusParams]
theorem test_ill_write_frame : ¬ WellFormed (.writeFrame []) := by decide +kernel

/-! ### The request instructions: the frame of each, written out from R61, R62 and R69, decodes to it and is what it sends -/

theorem test_v1Ping :
    decodeFrame .v1 .request 0 [0xFF, 0xFF, 0x01, 0x02, 0x01, 0xFB] = .ok (.v1Ping 0x01 [] 0) ∧
      sent (exec (.v1Ping 0x01 [] 0) (quiet .v1)) = [0xFF, 0xFF, 0x01, 0x02, 0x01, 0xFB] := by decide +kernel
theorem test_v1Read :
    decodeFrame .v1 .request 0 [0xFF, 0xFF, 0x01, 0x04, 0x02, 0x2B, 0x01, 0xCC] = .ok (.v1Read 0x01 [0x2B, 0x01] 0) ∧
      sent (exec (.v1Read 0x01 [0x2B, 0x01] 0) (quiet .v1)) = [0xFF, 0xFF, 0x01, 0x04, 0x02, 0x2B, 0x01, 0xCC] := by decide +kernel
theorem test_v1Write :
    decodeFrame .v1 .request 0 [0xFF, 0xFF, 0x01, 0x04, 0x03, 0x2B, 0x02, 0xCA] = .ok (.v1Write 0x01 [0x2B, 0x02] 0) ∧
      sent (exec (.v1Write 0x01 [0x2B, 0x02] 0) (quiet .v1)) = [0xFF, 0xFF, 0x01, 0x04, 0x03, 0x2B, 0x02, 0xCA] := by decide +kernel
theorem test_v1RegisteredWrite :
    decodeFrame .v1 .request 0 [0xFF, 0xFF, 0x01, 0x04, 0x04, 0x2B, 0x03, 0xC8] = .ok (.v1RegisteredWrite 0x01 [0x2B, 0x03] 0) ∧
      sent (exec (.v1RegisteredWrite 0x01 [0x2B, 0x03] 0) (quiet .v1)) = [0xFF, 0xFF, 0x01, 0x04, 0x04, 0x2B, 0x03, 0xC8] := by decide +kernel
theorem test_v1TriggerAction :
    decodeFrame .v1 .request 0 [0xFF, 0xFF, 0x01, 0x04, 0x05, 0x2B, 0x04, 0xC6] = .ok (.v1TriggerAction 0x01 [0x2B, 0x04] 0) ∧
      sent (exec (.v1TriggerAction 0x01 [0x2B, 0x04] 0) (quiet .v1)) = [0xFF, 0xFF, 0x01, 0x04, 0x05, 0x2B, 0x04, 0xC6] := by decide +kernel
theorem test_v1FactoryReset :
    decodeFrame .v1 .request 0 [0xFF, 0xFF, 0x01, 0x04, 0x06, 0x2B, 0x05, 0xC4] = .ok (.v1FactoryReset 0x01 [0x2B, 0x05] 0) ∧
      sent (exec (.v1FactoryReset 0x01 [0x2B, 0x05] 0) (quiet .v1)) = [0xFF, 0xFF, 0x01, 0x04, 0x06, 0x2B, 0x05, 0xC4] := by decide +kernel
theorem test_v1Reboot :
    decodeFrame .v1 .request 0 [0xFF, 0xFF, 0x01, 0x04, 0x08, 0x2B, 0x06, 0xC1] = .ok (.v1Reboot 0x01 [0x2B, 0x06] 0) ∧
      sent (exec (.v1Reboot 0x01 [0x2B, 0x06] 0) (quiet .v1)) = [0xFF, 0xFF, 0x01, 0x04, 0x08, 0x2B, 0x06, 0xC1] := by decide +kernel
theorem test_v1Clear :
    decodeFrame .v1 .request 0 [0xFF, 0xFF, 0x01, 0x04, 0x10, 0x2B, 0x07, 0xB8] = .ok (.v1Clear 0x01 [0x2B, 0x07] 0) ∧
      sent (exec (.v1Clear 0x01 [0x2B, 0x07] 0) (quiet .v1)) = [0xFF, 0xFF, 0x01, 0x04, 0x10, 0x2B, 0x07, 0xB8] := by decide +kernel
theorem test_v1ControlTableBackup :
    decodeFrame .v1 .request 0 [0xFF, 0xFF, 0x01, 0x04, 0x20, 0x2B, 0x08, 0xA7] = .ok (.v1ControlTableBackup 0x01 [0x2B, 0x08] 0) ∧
      sent (exec (.v1ControlTableBackup 0x01 [0x2B, 0x08] 0) (quiet .v1)) = [0xFF, 0xFF, 0x01, 0x04, 0x20, 0x2B, 0x08, 0xA7] := by decide +kernel
theorem test_v1StatusReturn :
    decodeFrame .v1 .request 0 [0xFF, 0xFF, 0x01, 0x04, 0x55, 0x2B, 0x09, 0x71] = .ok (.v1StatusReturn 0x01 [0x2B, 0x09] 0) ∧
      sent (exec (.v1StatusReturn 0x01 [0x2B, 0x09] 0) (quiet .v1)) = [0xFF, 0xFF, 0x01, 0x04, 0x55, 0x2B, 0x09, 0x71] := by decide +kernel
theorem test_v1SyncRead :
    decodeFrame .v1 .request 0 [0xFF, 0xFF, 0x01, 0x04, 0x82, 0x2B, 0x0A, 0x43] = .ok (.v1SyncRead 0x01 [0x2B, 0x0A] 0) ∧
      sent (exec (.v1SyncRead 0x01 [0x2B, 0x0A] 0) (quiet .v1)) = [0xFF, 0xFF, 0x01, 0x04, 0x82, 0x2B, 0x0A, 0x43] := by decide +kernel
theorem test_v1SyncWrite :
    decodeFrame .v1 .request 0 [0xFF, 0xFF, 0x01, 0x04, 0x83, 0x2B, 0x0B, 0x41] = .ok (.v1SyncWrite 0x01 [0x2B, 0x0B] 0) ∧
      sent (exec (.v1SyncWrite 0x01 [0x2B, 0x0B] 0) (quiet .v1)) = [0xFF, 0xFF, 0x01, 0x04, 0x83, 0x2B, 0x0B, 0x41] := by decide +kernel
theorem test_v1FastSyncRead :
    decodeFrame .v1 .request 0 [0xFF, 0xFF, 0x01, 0x04, 0x8A, 0x2B, 0x0C, 0x39] = .ok (.v1FastSyncRead 0x01 [0x2B, 0x0C] 0) ∧
      sent (exec (.v1FastSyncRead 0x01 [0x2B, 0x0C] 0) (quiet .v1)) = [0xFF, 0xFF, 0x01, 0x04, 0x8A, 0x2B, 0x0C, 0x39] := by decide +kernel
theorem test_v1BulkRead :
    decodeFrame .v1 .request 0 [0xFF, 0xFF, 0x01, 0x04, 0x92, 0x2B, 0x0D, 0x30] = .ok (.v1BulkRead 0x01 [0x2B, 0x0D] 0) ∧
      sent (exec (.v1BulkRead 0x01 [0x2B, 0x0D] 0) (quiet .v1)) = [0xFF, 0xFF, 0x01, 0x04, 0x92, 0x2B, 0x0D, 0x30] := by decide +kernel
theorem test_v1BulkWrite :
    decodeFrame .v1 .request 0 [0xFF, 0xFF, 0x01, 0x04, 0x93, 0x2B, 0x0E, 0x2E] = .ok (.v1BulkWrite 0x01 [0x2B, 0x0E] 0) ∧
      sent (exec (.v1BulkWrite 0x01 [0x2B, 0x0E] 0) (quiet .v1)) = [0xFF, 0xFF, 0x01, 0x04, 0x93, 0x2B, 0x0E, 0x2E] := by decide +kernel
theorem test_v1FastBulkRead :
    decodeFrame .v1 .request 0 [0xFF, 0xFF, 0x01, 0x04, 0x9A, 0x2B, 0x0F, 0x26] = .ok (.v1FastBulkRead 0x01 [0x2B, 0x0F] 0) ∧
      sent (exec (.v1FastBulkRead 0x01 [0x2B, 0x0F] 0) (quiet .v1)) = [0xFF, 0xFF, 0x01, 0x04, 0x9A, 0x2B, 0x0F, 0x26] := by decide +kernel
theorem test_v2Ping :
    decodeFrame .v2 .request 0 [0xFF, 0xFF, 0xFD, 0x00, 0x01, 0x03, 0x00, 0x01, 0x3A, 0x14] = .ok (.v2Ping 0x01 [] 0) ∧
      sent (exec (.v2Ping 0x01 [] 0) (quiet .v2)) = [0xFF, 0xFF, 0xFD, 0x00, 0x01, 0x03, 0x00, 0x01, 0x3A, 0x14] := by decide +kernel
theorem test_v2Read :
    decodeFrame .v2 .request 0 [0xFF, 0xFF, 0xFD, 0x00, 0x01, 0x06, 0x00, 0x02, 0x84, 0x00, 0x01, 0x40, 0x33] = .ok (.v2Read 0x01 [0x84, 0x00, 0x01] 0) ∧
      sent (exec (.v2Read 0x01 [0x84, 0x00, 0x01] 0) (quiet .v2)) = [0xFF, 0xFF, 0xFD, 0x00, 0x01, 0x06, 0x00, 0x02, 0x84, 0x00, 0x01, 0x40, 0x33] := by decide +kernel
theorem test_v2Write :
    decodeFrame .v2 .request 0 [0xFF, 0xFF, 0xFD, 0x00, 0x01, 0x06, 0x00, 0x03, 0x84, 0x00, 0x02, 0x49, 0xA7] = .ok (.v2Write 0x01 [0x84, 0x00, 0x02] 0) ∧
      sent (exec (.v2Write 0x01 [0x84, 0x00, 0x02] 0) (quiet .v2)) = [0xFF, 0xFF, 0xFD, 0x00, 0x01, 0x06, 0x00, 0x03, 0x84, 0x00, 0x02, 0x49, 0xA7] := by decide +kernel
theorem test_v2RegisteredWrite :
    decodeFrame .v2 .request 0 [0xFF, 0xFF, 0xFD, 0x00, 0x01, 0x06, 0x00, 0x04, 0x84, 0x00, 0x03, 0x4F, 0xCB] = .ok (.v2RegisteredWrite 0x01 [0x84, 0x00, 0x03] 0) ∧
      sent (exec (.v2RegisteredWrite 0x01 [0x84, 0x00, 0x03] 0) (quiet .v2)) = [0xFF, 0xFF, 0xFD, 0x00, 0x01, 0x06, 0x00, 0x04, 0x84, 0x00, 0x03, 0x4F, 0xCB] := by decide +kernel
theorem test_v2TriggerAction :
    decodeFrame .v2 .request 0 [0xFF, 0xFF, 0xFD, 0x00, 0x01, 0x06, 0x00, 0x05, 0x84, 0x00, 0x04, 0x5D, 0xDF] = .ok (.v2TriggerAction 0x01 [0x84, 0x00, 0x04] 0) ∧
      sent (exec (.v2TriggerAction 0x01 [0x84, 0x00, 0x04] 0) (quiet .v2)) = [0xFF, 0xFF, 0xFD, 0x00, 0x01, 0x06, 0x00, 0x05, 0x84, 0x00, 0x04, 0x5D, 0xDF] := by decide +kernel
theorem test_v2FactoryReset :
    decodeFrame .v2 .request 0 [0xFF, 0xFF, 0xFD, 0x00, 0x01, 0x06, 0x00, 0x06, 0x84, 0x00, 0x05, 0x58, 0x63] = .ok (.v2FactoryReset 0x01 [0x84, 0x00, 0x05] 0) ∧
      sent (exec (.v2FactoryReset 0x01 [0x84, 0x00, 0x05] 0) (quiet .v2)) = [0xFF, 0xFF, 0xFD, 0x00, 0x01, 0x06, 0x00, 0x06, 0x84, 0x00, 0x05, 0x58, 0x63] := by decide +kernel
theorem test_v2Reboot :
    decodeFrame .v2 .request 0 [0xFF, 0xFF, 0xFD, 0x00, 0x01, 0x06, 0x00, 0x08, 0x84, 0x00, 0x06, 0x51, 0x3B] = .ok (.v2Reboot 0x01 [0x84, 0x00, 0x06] 0) ∧
      sent (exec (.v2Reboot 0x01 [0x84, 0x00, 0x06] 0) (quiet .v2)) = [0xFF, 0xFF, 0xFD, 0x00, 0x01, 0x06, 0x00, 0x08, 0x84, 0x00, 0x06, 0x51, 0x3B] := by decide +kernel
theorem test_v2Clear :
    decodeFrame .v2 .request 0 [0xFF, 0xFF, 0xFD, 0x00, 0x01, 0x06, 0x00, 0x10, 0x84, 0x00, 0x07, 0x51, 0xDB] = .ok (.v2Clear 0x01 [0x84, 0x00, 0x07] 0) ∧
      sent (exec (.v2Clear 0x01 [0x84, 0x00, 0x07] 0) (quiet .v2)) = [0xFF, 0xFF, 0xFD, 0x00, 0x01, 0x06, 0x00, 0x10, 0x84, 0x00, 0x07, 0x51, 0xDB] := by decide +kernel
theorem test_v2ControlTableBackup :
    decodeFrame .v2 .request 0 [0xFF, 0xFF, 0xFD, 0x00, 0x01, 0x06, 0x00, 0x20, 0x84, 0x00, 0x08, 0x79, 0x1B] = .ok (.v2ControlTableBackup 0x01 [0x84, 0x00, 0x08] 0) ∧
      sent (exec (.v2ControlTableBackup 0x01 [0x84, 0x00, 0x08] 0) (quiet .v2)) = [0xFF, 0xFF, 0xFD, 0x00, 0x01, 0x06, 0x00, 0x20, 0x84, 0x00, 0x08, 0x79, 0x1B] := by decide +kernel
theorem test_v2StatusReturn :
    decodeFrame .v2 .request 0 [0xFF, 0xFF, 0xFD, 0x00, 0x01, 0x06, 0x00, 0x55, 0x84, 0x00, 0x09, 0x6B, 0x9F] = .ok (.v2StatusReturn 0x01 [0x84, 0x00, 0x09] 0) ∧
      sent (exec (.v2StatusReturn 0x01 [0x84, 0x00, 0x09] 0) (quiet .v2)) = [0xFF, 0xFF, 0xFD, 0x00, 0x01, 0x06, 0x00, 0x55, 0x84, 0x00, 0x09, 0x6B, 0x9F] := by decide +kernel
theorem test_v2SyncRead :
    decodeFrame .v2 .request 0 [0xFF, 0xFF, 0xFD, 0x00, 0x01, 0x06, 0x00, 0x82, 0x84, 0x00, 0x0A, 0x46, 0x33] = .ok (.v2SyncRead 0x01 [0x84, 0x00, 0x0A] 0) ∧
      sent (exec (.v2SyncRead 0x01 [0x84, 0x00, 0x0A] 0) (quiet .v2)) = [0xFF, 0xFF, 0xFD, 0x00, 0x01, 0x06, 0x00, 0x82, 0x84, 0x00, 0x0A, 0x46, 0x33] := by decide +kernel
theorem test_v2SyncWrite :
    decodeFrame .v2 .request 0 [0xFF, 0xFF, 0xFD, 0x00, 0x01, 0x06, 0x00, 0x83, 0x84, 0x00, 0x0B, 0x40, 0x27] = .ok (.v2SyncWrite 0x01 [0x84, 0x00, 0x0B] 0) ∧
      sent (exec (.v2SyncWrite 0x01 [0x84, 0x00, 0x0B] 0) (quiet .v2)) = [0xFF, 0xFF, 0xFD, 0x00, 0x01, 0x06, 0x00, 0x83, 0x84, 0x00, 0x0B, 0x40, 0x27] := by decide +kernel
theorem test_v2FastSyncRead :
    decodeFrame .v2 .request 0 [0xFF, 0xFF, 0xFD, 0x00, 0x01, 0x06, 0x00, 0x8A, 0x84, 0x00, 0x0C, 0x51, 0x13] = .ok (.v2FastSyncRead 0x01 [0x84, 0x00, 0x0C] 0) ∧
      sent (exec (.v2FastSyncRead 0x01 [0x84, 0x00, 0x0C] 0) (quiet .v2)) = [0xFF, 0xFF, 0xFD, 0x00, 0x01, 0x06, 0x00, 0x8A, 0x84, 0x00, 0x0C, 0x51, 0x13] := by decide +kernel
theorem test_v2BulkRead :
    decodeFrame .v2 .request 0 [0xFF, 0xFF, 0xFD, 0x00, 0x01, 0x06, 0x00, 0x92, 0x84, 0x00, 0x0D, 0x51, 0xF3] = .ok (.v2BulkRead 0x01 [0x84, 0x00, 0x0D] 0) ∧
      sent (exec (.v2BulkRead 0x01 [0x84, 0x00, 0x0D] 0) (quiet .v2)) = [0xFF, 0xFF, 0xFD, 0x00, 0x01, 0x06, 0x00, 0x92, 0x84, 0x00, 0x0D, 0x51, 0xF3] := by decide +kernel
theorem test_v2BulkWrite :
    decodeFrame .v2 .request 0 [0xFF, 0xFF, 0xFD, 0x00, 0x01, 0x06, 0x00, 0x93, 0x84, 0x00, 0x0E, 0x58, 0x67] = .ok (.v2BulkWrite 0x01 [0x84, 0x00, 0x0E] 0) ∧
      sent (exec (.v2BulkWrite 0x01 [0x84, 0x00, 0x0E] 0) (quiet .v2)) = [0xFF, 0xFF, 0xFD, 0x00, 0x01, 0x06, 0x00, 0x93, 0x84, 0x00, 0x0E, 0x58, 0x67] := by decide +kernel
theorem test_v2FastBulkRead :
    decodeFrame .v2 .request 0 [0xFF, 0xFF, 0xFD, 0x00, 0x01, 0x06, 0x00, 0x9A, 0x84, 0x00, 0x0F, 0x5D, 0x53] = .ok (.v2FastBulkRead 0x01 [0x84, 0x00, 0x0F] 0) ∧
      sent (exec (.v2FastBulkRead 0x01 [0x84, 0x00, 0x0F] 0) (quiet .v2)) = [0xFF, 0xFF, 0xFD, 0x00, 0x01, 0x06, 0x00, 0x9A, 0x84, 0x00, 0x0F, 0x5D, 0x53] := by decide +kernel

/-! ### The decoder's refusals, and the status frames -/

theorem test_v1Status :
    decodeFrame .v1 .status 1 [0xFF, 0xFF, 0x01, 0x03, 0x00, 0x20, 0xDB] = .ok (.v1Status 0x01 0x00 [0x20] 0xDB 1) ∧
      retOf (exec (.v1Status 0x01 0x00 [0x20] 0xDB 1) (quiet .v1)) =
        some (.decoded (.frame ⟨0x01, none, 0x00, [0x20], .v1 0xDB⟩)) ∧
      retOf (exec (.v1Status 0x01 0x00 [0x20] 0xDC 1) (quiet .v1)) = some (.decoded (.error .integrityMismatch)) := by
  decide +kernel
theorem test_v2Status :
    decodeFrame .v2 .status 0 [0xFF, 0xFF, 0xFD, 0x00, 0x01, 0x04, 0x00, 0x54, 0x00, 0x7E, 0xA8] =
        .ok (.v2Status 0x01 0x54 0x00 [] 0xA87E 0) ∧
      retOf (exec (.v2Status 0x01 0x54 0x00 [] 0xA87E 0) (quiet .v2)) =
        some (.decoded (.frame ⟨0x01, some 0x54, 0x00, [], .v2 0xA87E⟩)) ∧
      retOf (exec (.v2Status 0x01 0x55 0x00 [0x34, 0x12] 0xAD62 1) (quiet .v2)) = some (.decoded (.error .lengthMismatch)) := by
  decide +kernel
theorem test_decode_rejects :
    decodeFrame .v1 .request 0 [0xFF, 0xFF, 0x01] = .error .tooShort ∧
    decodeFrame .v1 .request 0 [0xFF, 0xFE, 0x01, 0x02, 0x01, 0xFB] = .error .badMarker ∧
    decodeFrame .v1 .request 0 [0xFF, 0xFF, 0x01, 0x01, 0x01, 0xFB] = .error .badLength ∧
    decodeFrame .v1 .request 0 [0xFF, 0xFF, 0x01, 0x02, 0x07, 0xF5] = .error (.unknownInstr 0x07) ∧
    decodeFrame .v1 .request 0 [0xFF, 0xFF, 0x01, 0x02, 0x01, 0xFA] = .error .badCheck ∧
    decodeFrame .v1 .request 0 [0xFF, 0xFF, 0x01, 0x02, 0x01, 0xFB, 0x00] = .error .trailingBytes ∧
    decodeFrame .v2 .status 2 [0xFF, 0xFF, 0xFD, 0x00, 0x01, 0x06, 0x00, 0x55, 0xFF, 0xFF, 0xFD, 0x5B, 0x82] =
      .error .badStuffing := by decide +kernel
theorem test_table_words :
    decodeTableWord 40 0x020000FFFF = some (.v1Read 0x00 [] 0) ∧
    decodeTableWord 40 0x000000FFFF = some (.v1Status 0x00 0x00 [] 0xFD 0) ∧
    decodeTableWord 64 0x0100000000FDFFFF = some (.v2Ping 0x00 [] 0) ∧
    sent (step (State.reset.withFetchWord 40 0x010201FFFF)) = [0xFF, 0xFF, 0x01, 0x02, 0x01, 0xFB] ∧
    sent (step (State.reset.withFetchWord 64 0x0100030100FDFFFF)) =
      [0xFF, 0xFF, 0xFD, 0x00, 0x01, 0x03, 0x00, 0x01, 0x3A, 0x14] := by decide +kernel

/-! ### Connection -/

theorem test_construct :
    (nextOf (exec (.construct ⟨1⟩ ⟨2⟩ .v2 2 4 ⟨9⟩ 64) { State.reset with trace := [.rxFail] })).map
        (fun s => (s.bound, s.cfg, s.dir, s.fsm, s.trace)) =
      some (true, { rev := .v2, mult := 2, echoLen := 4, timeout := ⟨9⟩, maxPacket := 64 }, .rx, .idle, []) := by decide +kernel
theorem test_construct_refused :
    refusalOf (exec (.construct ⟨1⟩ ⟨2⟩ .v2 3 4 ⟨9⟩ 64) State.reset) = some .badConfiguration ∧
    refusalOf (exec (.construct ⟨1⟩ ⟨2⟩ .v2 2 4 ⟨9⟩ 64) (quiet .v1)) = some .busy := by decide +kernel
theorem test_teardown :
    (nextOf (exec .teardown (quiet .v1))).bind (fun s => refusalOf (exec (.ping 0x01) s)) = some .notBound := by decide +kernel

/-! ### Facade and engine (the tables of 95 for R140 and R160 to R162) -/

theorem test_ping_v2 : sent (exec (.ping 0x01) (quiet .v2)) = [0xFF, 0xFF, 0xFD, 0x00, 0x01, 0x03, 0x00, 0x01, 0x3A, 0x14] := by
  decide +kernel
theorem test_read_v1 :
    result (exec (.read 0x01 0x2B 1) (conn .v1 1 0 [0xFF, 0xFF, 0x01, 0x03, 0x00, 0x20, 0xDB, 0x99])) =
      some (.outcome (.okSome ⟨0x01, none, 0x00, [0x20], .v1 0xDB⟩), [0x99]) ∧
    refusalOf (exec (.read 0x01 0x10 254) (quiet .v1)) = some .operandOutOfRange ∧
    refusalOf (exec (.read 0x01 0x100 1) (quiet .v1)) = some .operandOutOfRange := by decide +kernel
theorem test_read_v2 :
    sent (exec (.read 0x01 0x0084 4) (quiet .v2)) =
      [0xFF, 0xFF, 0xFD, 0x00, 0x01, 0x07, 0x00, 0x02, 0x84, 0x00, 0x04, 0x00, 0xB9, 0xDF] ∧
    refusalOf (exec (.read 0x01 0 65532) (quiet .v2)) = some .operandOutOfRange := by decide +kernel
theorem test_write_v1 :
    sent (exec (.write 0xFE 0x03 [0x01]) (quiet .v1)) = [0xFF, 0xFF, 0xFE, 0x04, 0x03, 0x03, 0x01, 0xF6] ∧
    retOf (exec (.write 0xFE 0x03 [0x01]) (quiet .v1)) = some (.outcome .okNone) ∧
    refusalOf (exec (.write 0x01 0x10 (zeros 253)) (quiet .v1)) = some .operandOutOfRange := by decide +kernel
theorem test_write_v2 :
    sent (exec (.write 0x01 0x0010 [0xFF, 0xFF, 0xFD]) (quiet .v2)) =
      [0xFF, 0xFF, 0xFD, 0x00, 0x01, 0x08, 0x00, 0x03, 0x10, 0x00, 0xFF, 0xFF, 0xFD, 0xFD, 0x13, 0x5C] := by decide +kernel
theorem test_transact_echo :
    traceOf (exec (.transact 0x01 .read [0x2B, 0x01] 1)
        (conn .v1 2 4 [0x12, 0x34, 0x56, 0x78, 0xFF, 0xFF, 0x01, 0x03, 0x00, 0x20, 0xDB])) =
      some ([.dir .tx, .tx 0xFF, .tx 0xFF, .tx 0x01, .tx 0x04, .tx 0x02, .tx 0x2B, .tx 0x01, .tx 0xCC, .drained, .dir .rx] ++
        [.rxDiscarded [0x12, 0x34, 0x56, 0x78], .rxTaken [0xFF, 0xFF, 0x01, 0x03, 0x00, 0x20, 0xDB]]) := by decide +kernel
theorem test_transact_errors :
    result (exec (.transact 0x01 .read [0x2B, 0x01] 1) (conn .v1 1 0 [0xFF, 0xFF, 0x01, 0x03])) =
      some (.outcome (.err .timeout), []) ∧
    result (exec (.transact 0x01 .read [0x2B, 0x01] 1) (conn .v1 2 4 [0xDE, 0xAD])) = some (.outcome (.err .timeout), []) ∧
    result (exec (.transact 0x01 .read [0x2B, 0x01] 1) (conn .v1 1 0 [0xFF, 0xFE, 0x01, 0x03, 0x00, 0x20, 0xDB])) =
      some (.outcome (.err .badMarker), []) ∧
    result (exec (.transact 0x01 .read [0x2B, 0x01] 1) (conn .v1 1 0 [0xFF, 0xFF, 0x01, 0x04, 0x00, 0x20, 0x21, 0xB9])) =
      some (.outcome (.err .frameTooShort), [0xB9]) ∧
    result (exec (.transact 0x01 .read [0x2B, 0x01] 1) (conn .v1 1 0 [0xFF, 0xFF, 0x01, 0x02, 0x00, 0xFC, 0x77])) =
      some (.outcome (.err .lengthMismatch), []) ∧
    result (exec (.transact 0x01 .read [0x2B, 0x01] 1) (conn .v1 1 0 [0xFF, 0xFF, 0x01, 0x03, 0x00, 0x20, 0xDC])) =
      some (.outcome (.err .integrityMismatch), []) := by decide +kernel

/-! ### Frame Codec (the tables of 95) -/

theorem test_encodeRequestV1 :
    retOf (exec (.encodeRequestV1 0x01 .read [0x24, 0x02]) (quiet .v1)) =
      some (.bytes [0xFF, 0xFF, 0x01, 0x04, 0x02, 0x24, 0x02, 0xD2]) ∧
    refusalOf (exec (.encodeRequestV1 0x01 .read (zeros 254)) (quiet .v1)) = some .lengthFieldOverflow := by
  decide +kernel
theorem test_encodeRequestV2 :
    retOf (exec (.encodeRequestV2 0x01 .write [0x10, 0x00, 0xFF, 0xFF, 0xFD]) (quiet .v2)) =
      some (.bytes [0xFF, 0xFF, 0xFD, 0x00, 0x01, 0x08, 0x00, 0x03, 0x10, 0x00, 0xFF, 0xFF, 0xFD, 0xFD, 0x13, 0x5C]) ∧
    refusalOf (exec (.encodeRequestV2 0x01 .read (zeros 55)) (quiet .v2)) = some .packetTooLong := by decide +kernel
theorem test_encodeStatusV1 :
    retOf (exec (.encodeStatusV1 0x01 0x00 [0x20]) (quiet .v1)) =
      some (.bytes [0xFF, 0xFF, 0x01, 0x03, 0x00, 0x20, 0xDB]) := by decide +kernel
theorem test_encodeStatusV2 :
    retOf (exec (.encodeStatusV2 0x01 0xFF [0xFF, 0xFD]) (quiet .v2)) =
      some (.bytes [0xFF, 0xFF, 0xFD, 0x00, 0x01, 0x06, 0x00, 0x55, 0xFF, 0xFF, 0xFD, 0xFD, 0x5B, 0x82]) := by decide +kernel
theorem test_decodeStatusV1 :
    retOf (exec (.decodeStatusV1 2 [0xFF, 0xFF, 0x02, 0x04, 0x04, 0xFF, 0xFF, 0xF7]) (quiet .v1)) =
      some (.decoded (.frame ⟨0x02, none, 0x04, [0xFF, 0xFF], .v1 0xF7⟩)) ∧
    retOf (exec (.decodeStatusV1 1 [0xFF, 0xFF, 0x01, 0x00, 0xFE]) (quiet .v1)) = some (.decoded (.error .lengthMismatch)) ∧
    retOf (exec (.decodeStatusV1 1 [0xFE, 0xFF, 0x01]) (quiet .v1)) = some (.decoded (.error .frameTooShort)) := by decide +kernel
theorem test_decodeStatusV2 :
    retOf (exec (.decodeStatusV2 2 [0xFF, 0xFF, 0xFD, 0x00, 0x01, 0x06, 0x00, 0x55, 0xFF, 0xFF, 0xFD, 0xFD, 0x5B, 0x82]) (quiet .v2)) =
      some (.decoded (.frame ⟨0x01, some 0x55, 0xFF, [0xFF, 0xFD], .v2 0x825B⟩)) ∧
    retOf (exec (.decodeStatusV2 3 [0xFF, 0xFF, 0xFD, 0x00, 0x01, 0x07, 0x00, 0x55, 0x00, 0xFF, 0xFF, 0xFD, 0xFD, 0x04]) (quiet .v2)) =
      some (.decoded (.error .frameTooShort)) ∧
    retOf (exec (.decodeStatusV2 2 [0xFF, 0xFF, 0xFD, 0x00, 0x01, 0x06, 0x00, 0x55, 0xFF, 0xFF, 0xFD, 0x5B, 0x82, 0x00]) (quiet .v2)) =
      some (.decoded (.error .integrityMismatch)) := by decide +kernel
theorem test_stuff :
    retOf (exec (.stuff [0xFF, 0xFF, 0xFD, 0xFF, 0xFF, 0xFD]) (quiet .v1)) =
      some (.bytes [0xFF, 0xFF, 0xFD, 0xFD, 0xFF, 0xFF, 0xFD, 0xFD]) ∧
    retOf (exec (.stuff [0xFF, 0xFF, 0xFD, 0xFD]) (quiet .v1)) = some (.bytes [0xFF, 0xFF, 0xFD, 0xFD, 0xFD]) ∧
    retOf (exec (.stuff [0xFF, 0xFF, 0xFF, 0xFD]) (quiet .v1)) = some (.bytes [0xFF, 0xFF, 0xFF, 0xFD, 0xFD]) := by decide +kernel
theorem test_unstuffTake :
    retOf (exec (.unstuffTake [0xFF, 0xFF, 0xFD, 0xFD, 0x5B, 0x82] 3) (quiet .v1)) =
      some (.taken (some ([0xFF, 0xFF, 0xFD], 4))) ∧
    retOf (exec (.unstuffTake [0xFF, 0xFF, 0xFD, 0xFD] 4) (quiet .v1)) = some (.taken none) := by decide +kernel

/-! ### Integrity Check (the tables of 95, and the table listing of R113) -/

theorem test_chk8 :
    retOf (exec (.chk8 [0x01, 0x04, 0x02, 0x2B, 0x01]) (quiet .v1)) = some (.check (.v1 0xCC)) ∧
    retOf (exec (.chk8 [0xFF, 0xFF, 0x01]) (quiet .v1)) = some (.check (.v1 0x00)) := by decide +kernel
theorem test_crc16 :
    retOf (exec (.crc16 [0x31, 0x32, 0x33, 0x34, 0x35, 0x36, 0x37, 0x38, 0x39]) (quiet .v2)) = some (.check (.v2 0xFEE8)) ∧
    retOf (exec (.crc16 []) (quiet .v2)) = some (.check (.v2 0x0000)) := by decide +kernel
theorem test_crc16OfBody :
    retOf (exec (.crc16OfBody [0x01, 0x03, 0x00, 0x01] [0x01, 0x03, 0x00, 0x01]) (quiet .v2)) = some (.check (.v2 0x143A)) := by
  decide +kernel
theorem test_verify :
    retOf (exec (.verify (.v1 [0x01, 0x03, 0x00, 0x20] 0xDB)) (quiet .v1)) = some (.bool true) ∧
    retOf (exec (.verify (.v1 [0x01, 0x03, 0x00, 0x20] 0xDC)) (quiet .v1)) = some (.bool false) ∧
    retOf (exec (.verify (.v2 [0x01, 0x04, 0x00, 0x55, 0x00] [0x01, 0x04, 0x00, 0x55, 0x00] 0x2E7D)) (quiet .v2)) =
      some (.bool true) := by decide +kernel
theorem test_compute :
    retOf (exec (.compute (.v1 [0x01, 0x02, 0x01])) (quiet .v1)) = some (.check (.v1 0xFB)) ∧
    retOf (exec (.compute (.v2 [0x01, 0x03, 0x00, 0x01] [0x01, 0x03, 0x00, 0x01])) (quiet .v2)) = some (.check (.v2 0x143A)) := by
  decide +kernel

theorem test_other_revision_is_not_computed :
    refusalOf (exec (.compute (.v2 [] [])) (quiet .v1)) = some .wrongRevision ∧
    refusalOf (exec (.crc16 [0x31]) (quiet .v1)) = some .wrongRevision ∧
    refusalOf (exec (.chk8 [0x31]) (quiet .v2)) = some .wrongRevision ∧
    refusalOf (exec (.decodeStatusV1 0 []) (quiet .v2)) = some .wrongRevision := by decide +kernel
/-- The listing of R113, 256 entries, against the table the model generates. -/
theorem test_crcTable_listing :
    crcTable =
      ([0x0000, 0x8005, 0x800F, 0x000A, 0x801B, 0x001E, 0x0014, 0x8011,
        0x8033, 0x0036, 0x003C, 0x8039, 0x0028, 0x802D, 0x8027, 0x0022] : List Word) ++
      ([0x8063, 0x0066, 0x006C, 0x8069, 0x0078, 0x807D, 0x8077, 0x0072,
        0x0050, 0x8055, 0x805F, 0x005A, 0x804B, 0x004E, 0x0044, 0x8041] : List Word) ++
      ([0x80C3, 0x00C6, 0x00CC, 0x80C9, 0x00D8, 0x80DD, 0x80D7, 0x00D2,
        0x00F0, 0x80F5, 0x80FF, 0x00FA, 0x80EB, 0x00EE, 0x00E4, 0x80E1] : List Word) ++
      ([0x00A0, 0x80A5, 0x80AF, 0x00AA, 0x80BB, 0x00BE, 0x00B4, 0x80B1,
        0x8093, 0x0096, 0x009C, 0x8099, 0x0088, 0x808D, 0x8087, 0x0082] : List Word) ++
      ([0x8183, 0x0186, 0x018C, 0x8189, 0x0198, 0x819D, 0x8197, 0x0192,
        0x01B0, 0x81B5, 0x81BF, 0x01BA, 0x81AB, 0x01AE, 0x01A4, 0x81A1] : List Word) ++
      ([0x01E0, 0x81E5, 0x81EF, 0x01EA, 0x81FB, 0x01FE, 0x01F4, 0x81F1,
        0x81D3, 0x01D6, 0x01DC, 0x81D9, 0x01C8, 0x81CD, 0x81C7, 0x01C2] : List Word) ++
      ([0x0140, 0x8145, 0x814F, 0x014A, 0x815B, 0x015E, 0x0154, 0x8151,
        0x8173, 0x0176, 0x017C, 0x8179, 0x0168, 0x816D, 0x8167, 0x0162] : List Word) ++
      ([0x8123, 0x0126, 0x012C, 0x8129, 0x0138, 0x813D, 0x8137, 0x0132,
        0x0110, 0x8115, 0x811F, 0x011A, 0x810B, 0x010E, 0x0104, 0x8101] : List Word) ++
      ([0x8303, 0x0306, 0x030C, 0x8309, 0x0318, 0x831D, 0x8317, 0x0312,
        0x0330, 0x8335, 0x833F, 0x033A, 0x832B, 0x032E, 0x0324, 0x8321] : List Word) ++
      ([0x0360, 0x8365, 0x836F, 0x036A, 0x837B, 0x037E, 0x0374, 0x8371,
        0x8353, 0x0356, 0x035C, 0x8359, 0x0348, 0x834D, 0x8347, 0x0342] : List Word) ++
      ([0x03C0, 0x83C5, 0x83CF, 0x03CA, 0x83DB, 0x03DE, 0x03D4, 0x83D1,
        0x83F3, 0x03F6, 0x03FC, 0x83F9, 0x03E8, 0x83ED, 0x83E7, 0x03E2] : List Word) ++
      ([0x83A3, 0x03A6, 0x03AC, 0x83A9, 0x03B8, 0x83BD, 0x83B7, 0x03B2,
        0x0390, 0x8395, 0x839F, 0x039A, 0x838B, 0x038E, 0x0384, 0x8381] : List Word) ++
      ([0x0280, 0x8285, 0x828F, 0x028A, 0x829B, 0x029E, 0x0294, 0x8291,
        0x82B3, 0x02B6, 0x02BC, 0x82B9, 0x02A8, 0x82AD, 0x82A7, 0x02A2] : List Word) ++
      ([0x82E3, 0x02E6, 0x02EC, 0x82E9, 0x02F8, 0x82FD, 0x82F7, 0x02F2,
        0x02D0, 0x82D5, 0x82DF, 0x02DA, 0x82CB, 0x02CE, 0x02C4, 0x82C1] : List Word) ++
      ([0x8243, 0x0246, 0x024C, 0x8249, 0x0258, 0x825D, 0x8257, 0x0252,
        0x0270, 0x8275, 0x827F, 0x027A, 0x826B, 0x026E, 0x0264, 0x8261] : List Word) ++
      ([0x0220, 0x8225, 0x822F, 0x022A, 0x823B, 0x023E, 0x0234, 0x8231,
        0x8213, 0x0216, 0x021C, 0x8219, 0x0208, 0x820D, 0x8207, 0x0202] : List Word) := by decide +kernel

/-! ### Transport Adapter (the table of 95 for R126 and R129) -/

theorem test_writeFrame :
    traceOf (exec (.writeFrame [0xFF, 0xFF, 0x01, 0x02, 0x01, 0xFB]) (quiet .v1)) =
      some [.dir .tx, .tx 0xFF, .tx 0xFF, .tx 0x01, .tx 0x02, .tx 0x01, .tx 0xFB, .drained, .dir .rx] := by decide +kernel
theorem test_writeFrame_fails :
    traceOf (exec (.writeFrame [0xFF, 0xFF, 0x01, 0x02, 0x01, 0xFB])
        { quiet .v1 with env := { tx := [⟨[], some ⟨3, []⟩⟩], rx := [], bind := [], between := [] } }) =
      some [.dir .tx, .tx 0xFF, .tx 0xFF, .tx 0x01, .txFail, .dir .rx] := by decide +kernel
theorem test_readExact :
    result (exec (.readExact 7) (conn .v1 1 0 [0xFF, 0xFF, 0x01, 0x03, 0x00, 0x20, 0xDB, 0x99])) =
      some (.bytes [0xFF, 0xFF, 0x01, 0x03, 0x00, 0x20, 0xDB], [0x99]) ∧
    result (exec (.readExact 7) (conn .v1 1 0 [0xFF, 0xFF, 0x01, 0x03])) = some (.raised .timeout, []) := by decide +kernel

/-! ### A step in the middle of a transaction, and an idle step -/

theorem test_step_advances :
    (nextOf (step { quiet .v1 with fsm := .done, out := some .okNone })).map (fun s => (s.fsm, s.out, s.ret)) =
      some (.idle, none, .outcome .okNone) ∧
    nextOf (step State.reset) = some State.reset := by decide +kernel
/-- Received bytes that are no frame are the decoder's error (R98), WRITE_FRAME and READ_EXACT are not offered (R125), and
bytes given as a request that are none are refused (R74). -/
theorem test_step_issues :
    retOf (step { quiet .v1 with pending := [.frame .status 1 [0xFF, 0xFE, 0x01, 0x03, 0x00, 0x20, 0xDB]] }) =
      some (.decoded (.error .badMarker)) ∧
    retOf (step { quiet .v2 with pending := [.frame .status 0 []] }) = some (.decoded (.error .frameTooShort)) ∧
    refusalOf (step { quiet .v1 with pending := [.call (.readExact 1)] }) = some .notOffered ∧
    refusalOf (step { quiet .v1 with pending := [.frame .request 0 [0xFF, 0xFF, 0x01, 0x02, 0x07, 0xF5]] }) =
      some (.undecodable (.unknownInstr 0x07)) := by decide +kernel
/-- Bytes that arrive between transactions join RXQ behind the pending ones (R34), with and without an operation issued. -/
theorem test_step_arrivals :
    (nextOf (step { conn .v1 1 0 [0x55] with env := { Environment.unplanned with between := [[0xFF, 0xFE], [0x01]] } })).map
        (fun s => (s.rxq, s.env.between)) = some ([0x55, 0xFF, 0xFE], [[0x01]]) ∧
    result (step { conn .v1 1 0 [0xFF, 0xFF, 0x01, 0x02] with
      pending := [.call (.ping 0x01)]
      env := { Environment.unplanned with between := [[0x00, 0xFC, 0x99]] } }) =
      some (.outcome (.okSome ⟨0x01, none, 0x00, [], .v1 0xFC⟩), [0x99]) := by decide +kernel
/-- An unbound PPE names NotBound for every command but CONSTRUCT (R39), whatever else is wrong with it. -/
theorem test_step_unbound :
    refusalOf (step { State.reset with pending := [.call (.readExact 1)] }) = some .notBound ∧
    refusalOf (step { State.reset with pending := [.frame .request 0 [0xFF, 0xFF, 0x01, 0x02, 0x07, 0xF5]] }) =
      some .notBound := by decide +kernel


/-! ### Witnesses: every hypothesis of every statement is met by a concrete state and operands -/

/-- A connection whose environment answers `e`. -/
def st (rev : Rev) (mult : BitVec 2) (echo : Nat) (q : List Byte) (e : Environment) : State := { conn rev mult echo q with env := e }

/-- The environment of the scripted transport. -/
def calm : Environment := Environment.unplanned

/-- A channel fault after `k` bytes of the frame. -/
def txFails (k : Nat) : Environment := { tx := [⟨[], some ⟨k, [0x77]⟩⟩], rx := [], bind := [], between := [] }

/-- A channel fault at the first receive. -/
def rxFails : Environment := { tx := [], rx := [⟨[], some [0x77]⟩], bind := [], between := [] }

/-- A first receive that ends well, then a channel fault. -/
def rxFailsNext : Environment := { tx := [], rx := [⟨[], none⟩, ⟨[], some []⟩], bind := [], between := [] }

theorem test_admits_read (rev : Rev) (mult : BitVec 2) (echo : Nat) (q : List Byte) (e : Environment) :
    (st rev mult echo q e).Admits 0x01 .read [0x2B, 0x01] 1 := by
  cases rev
  · exact ⟨⟨rfl, rfl⟩, (by decide : 2 ≤ 253), (by decide : 1 ≤ 253),
      (by decide +kernel : (requestFrame .v1 0x01 .read [0x2B, 0x01]).length ≤ 64)⟩
  · exact ⟨⟨rfl, rfl⟩, (by decide : 2 ≤ 65532), (by decide : 1 ≤ 65531),
      (by decide +kernel : (requestFrame .v2 0x01 .read [0x2B, 0x01]).length ≤ 64)⟩

theorem test_admits_largest_v1 :
    State.Admits { quiet .v1 with cfg := { (quiet .v1).cfg with maxPacket := 259 } } 0x01 .read (zeros 253) 253 :=
  ⟨⟨rfl, rfl⟩, by decide +kernel, by decide +kernel, by decide +kernel⟩

theorem test_admits_largest_v2 :
    State.Admits
      { quiet .v2 with cfg := { (quiet .v2).cfg with maxPacket := (requestFrame .v2 0x01 .read (zeros 65532)).length } }
      0x01 .read (zeros 65532) 65531 := by
  refine ⟨⟨rfl, rfl⟩, ?_, ?_, ?_⟩
  · rw [zeros_length]; exact Nat.le_refl _
  · exact Nat.le_refl _
  · exact Nat.le_refl _

theorem test_transaction_forms (rev : Rev) :
    IsTransaction rev 0x01 .read [0x2B, 0x01] 1 (.transact 0x01 .read [0x2B, 0x01] 1) ∧
    IsTransaction rev 0x01 .read [0x2B, 0x01] 1 (Instr.request rev .read 0x01 [0x2B, 0x01] 1) :=
  ⟨.inl rfl, .inr rfl⟩

/-! Integrity Check and Frame Codec: `Ready` and either revision are met by a connection of it. -/

theorem test_witness_Ready (rev : Rev) : (quiet rev).Ready ∧ (quiet rev).cfg.rev = rev := ⟨⟨rfl, rfl⟩, rfl⟩
theorem test_witness_Crc16IsLinearOverXor : ([0x31, 0x32] : List Byte).length = ([0xFF, 0x00] : List Byte).length := rfl
theorem test_witness_OneChangedByteChangesBothChecks : (0x20 : Byte) ≠ 0x21 ∧ (0x00 : Byte) ≠ 0xFF := by decide
theorem test_witness_IntegrityOperationsArePure :
    (∃ b, Instr.chk8 [0x01] = .chk8 b) ∧ (∃ b, Instr.crc16 [0x01] = .crc16 b) ∧
    (∃ r, Instr.compute (.v1 [0x01]) = .compute r) ∧ (∃ v, Instr.verify (.v1 [0x01] 0xFE) = .verify v) ∧
    (∀ rev, (quiet rev).Ready ∧ (quiet rev).cfg.rev = rev) :=
  ⟨⟨_, rfl⟩, ⟨_, rfl⟩, ⟨_, rfl⟩, ⟨_, rfl⟩, fun _ => ⟨⟨rfl, rfl⟩, rfl⟩⟩
theorem test_witness_UnstuffTakeReturnsTheFirstBytes :
    (quiet .v1).Ready ∧ unstuffTake [0xFF, 0xFF, 0xFD, 0xFD] 3 = some ([0xFF, 0xFF, 0xFD], 4) ∧
    unstuffTake [0xFF, 0xFF, 0xFD, 0xFD] 4 = none ∧ unstuffTake [] 0 = some ([], 0) := ⟨⟨rfl, rfl⟩, by decide +kernel⟩
theorem test_witness_V1RequestLayout :
    let s := { quiet .v1 with cfg := { (quiet .v1).cfg with maxPacket := 259 } }
    s.Ready ∧ s.cfg.rev = .v1 ∧ (zeros 253).length ≤ 253 ∧ (zeros 253).length + 6 ≤ s.cfg.maxPacket :=
  ⟨⟨rfl, rfl⟩, rfl, by decide +kernel, by decide +kernel⟩
theorem test_witness_V2RequestLayout :
    (∃ s : State, s.Ready ∧ s.cfg.rev = .v2 ∧ ∀ params ∈ [([] : List Byte), zeros 65532], params.length ≤ 65532 ∧
      (requestFrame .v2 0x01 .read params).length ≤ s.cfg.maxPacket) := by
  refine ⟨{ quiet .v2 with cfg := { (quiet .v2).cfg with
    maxPacket := max (requestFrame .v2 0x01 .read []).length (requestFrame .v2 0x01 .read (zeros 65532)).length } },
    ⟨rfl, rfl⟩, rfl, fun params h => ?_⟩
  obtain rfl | rfl : params = [] ∨ params = zeros 65532 := by simpa using h
  · exact ⟨Nat.zero_le _, Nat.le_max_left _ _⟩
  · exact ⟨by rw [zeros_length], Nat.le_max_right _ _⟩
theorem test_witness_StatusFrameLayouts :
    ((quiet .v1).Ready ∧ (quiet .v1).cfg.rev = .v1 ∧ (zeros 253).length ≤ 253) ∧
    (quiet .v2).Ready ∧ (quiet .v2).cfg.rev = .v2 ∧ (zeros 65531).length ≤ 65531 := by
  exact ⟨⟨⟨rfl, rfl⟩, rfl, by rw [zeros_length]⟩, ⟨rfl, rfl⟩, rfl, by rw [zeros_length]⟩
theorem test_witness_WhatDoesNotFitIsRefused :
    ((quiet .v1).Ready ∧ (quiet .v1).cfg.rev = .v1 ∧ (quiet .v1).cfg.rev ≠ .v2 ∧ 253 < (zeros 254).length ∧
      (zeros 59).length ≤ 253 ∧ (quiet .v1).cfg.maxPacket < (zeros 59).length + 6) ∧
    ((quiet .v2).Ready ∧ (quiet .v2).cfg.rev = .v2 ∧ (quiet .v2).cfg.rev ≠ .v1 ∧
      (zeros 55).length ≤ 65532 ∧ (quiet .v2).cfg.maxPacket < (requestFrame .v2 0x01 .read (zeros 55)).length ∧
      (quiet .v2).cfg.maxPacket < (zeros 65).length) ∧
    65532 < (zeros 65533).length ∧ 65531 < (zeros 65532).length := by
  refine ⟨⟨⟨rfl, rfl⟩, by decide +kernel⟩, ⟨⟨rfl, rfl⟩, by decide +kernel⟩, ?_, ?_⟩ <;> (rw [zeros_length]; decide)
theorem test_witness_StatusFrameRoundTrip : (zeros 253).length ≤ 253 ∧ (zeros 65531).length ≤ 65531 := by
  rw [zeros_length, zeros_length]; decide
theorem test_witness_DecoderIgnoresBytesBehindTheFrame :
    decodeStatus .v1 1 [0xFF, 0xFF, 0x01, 0x03, 0x00, 0x20, 0xDB] = .frame ⟨0x01, none, 0x00, [0x20], .v1 0xDB⟩ ∧
    decodeStatus .v2 0 [0xFF, 0xFF, 0xFD, 0x00, 0x01, 0x04, 0x00, 0x54, 0x00, 0x7E, 0xA8] =
      .frame ⟨0x01, some 0x54, 0x00, [], .v2 0xA87E⟩ := by decide +kernel
theorem test_witness_V1StatusFrameIsDecoded :
    (quiet .v1).Ready ∧ (quiet .v1).cfg.rev = .v1 ∧ (zeros 253).length ≤ 253 ∧
    0 ≠ ([0x20] : List Byte).length ∧ (0xDC : Byte) ≠ chk8 (statusBody .v1 0x01 0x00 [0x20]) ∧
    (0xDB : Byte) = chk8 (statusBody .v1 0x01 0x00 [0x20]) := ⟨⟨rfl, rfl⟩, by decide +kernel⟩
theorem test_witness_V2StatusFrameIsDecoded :
    (quiet .v2).Ready ∧ (quiet .v2).cfg.rev = .v2 ∧ (zeros 65531).length ≤ 65531 ∧
    (let body : List Byte := [0x01, 0x04, 0x00, 0x54, 0x00]
     crc16OfBody switches body (stuff body) = 0xA87E ∧ crc16OfBody switches body (stuff body) ≠ 0xA87F) := by
  refine ⟨⟨rfl, rfl⟩, rfl, ?_, by decide +kernel⟩; rw [zeros_length]
theorem test_witness_OtherRevisionNeverDecodes :
    ((quiet .v2).Ready ∧ (quiet .v2).cfg.rev = .v2 ∧ ([] : List Byte).length ≤ 253 ∧ (zeros 253).length ≤ 253) ∧
    ((quiet .v1).Ready ∧ (quiet .v1).cfg.rev = .v1 ∧ (zeros 65531).length ≤ 65531) := by
  refine ⟨⟨⟨rfl, rfl⟩, by decide +kernel⟩, ⟨rfl, rfl⟩, rfl, ?_⟩; rw [zeros_length]

/-! Connection and Transport Adapter. -/

theorem test_witness_ConstructBindsTheConnection : State.reset.bound = false ∧ (2 : BitVec 2) ≠ 3 := by decide
theorem test_witness_ConstructRefusesMultiplicityThree :
    (quiet .v1).bound = true ∧ State.reset.bound = false ∧ (3 : BitVec 2) = 3 := by decide
theorem test_witness_OnlyConstructRunsUnbound :
    (State.reset.bound = false ∧ isConstruct .teardown = false) ∧
    (∃ t, exec (.construct ⟨0⟩ ⟨0⟩ .v1 2 0 ⟨0⟩ 64) State.reset = .next t) ∧
    (∃ t, exec .teardown (quiet .v1) = .next t) ∧ (∃ t, exec (.stuff []) (quiet .v1) = .next t) :=
  ⟨by decide, next_of_nextOf (by decide +kernel), next_of_nextOf (by decide +kernel), next_of_nextOf (by decide +kernel)⟩
theorem test_witness_RunningTransactionRefusesEveryOperation :
    let s := { quiet .v1 with fsm := Fsm.awaitReply }
    s.bound = true ∧ s.fsm ≠ .idle := by decide
theorem test_witness_OnlyConstructWritesTheConfiguration :
    (∃ t, exec (.construct ⟨0⟩ ⟨0⟩ .v2 0 0 ⟨0⟩ 64) State.reset = .next t) ∧
    isConstruct (.construct ⟨0⟩ ⟨0⟩ .v2 0 0 ⟨0⟩ 64) = true ∧
    (∃ t, exec (.readExact 0) (quiet .v1) = .next t) ∧ isConstruct (.readExact 0) = false :=
  ⟨next_of_nextOf (by decide +kernel), rfl, next_of_nextOf (by decide +kernel), rfl⟩
theorem test_witness_WriteFrameAlwaysReleasesTheLine :
    (quiet .v1).Ready ∧ (zeros 64).length ≤ (quiet .v1).cfg.maxPacket ∧ (quiet .v1).env.nextTx.fault = none ∧
    (st .v1 0 0 [] (txFails 0)).Ready ∧ (st .v1 0 0 [] (txFails 0)).env.nextTx.fault = some ⟨0, [0x77]⟩ :=
  ⟨⟨rfl, rfl⟩, by decide +kernel, rfl, ⟨rfl, rfl⟩, rfl⟩
theorem test_witness_ReadExactReturnsExactlyOrFails :
    let s := st .v1 0 0 [0x01, 0x02] calm
    let q := s.rxq ++ s.env.nextRx.arrivals
    let f := st .v1 0 0 [0x01, 0x02] rxFails
    s.Ready ∧ s.env.nextRx.fault = none ∧ 2 ≤ q.length ∧ q.length < 3 ∧
      f.Ready ∧ f.env.nextRx.fault = some [0x77] :=
  ⟨⟨rfl, rfl⟩, rfl, by decide, by decide, ⟨rfl, rfl⟩, rfl⟩
theorem test_witness_EnoughPendingBytesNeverTimeOut :
    let s := st .v1 0 0 [0x01, 0x02] calm
    s.Ready ∧ 2 ≤ s.rxq.length ∧ s.env.nextRx.fault = none := ⟨⟨rfl, rfl⟩, by decide, rfl⟩

/-! Transaction Engine. Together with `test_admits_read`, `test_admits_largest_v1`, `test_admits_largest_v2` and
`test_transaction_forms`, each of these meets all the hypotheses of its statement. -/

theorem test_witness_EveryAdmittedTransactionReturns :
    (st .v1 2 4 [] rxFails).Admits 0x01 .read [0x2B, 0x01] 1 ∧
    IsTransaction .v1 0x01 .read [0x2B, 0x01] 1 (.v1Read 0x01 [0x2B, 0x01] 1) := ⟨test_admits_read .v1 2 4 [] rxFails, .inr rfl⟩
theorem test_witness_OneRequestFrameAndNoRetries :
    (st .v2 2 1 [0x00] calm).Admits 0x01 .read [0x2B, 0x01] 1 ∧
    IsTransaction .v2 0x01 .read [0x2B, 0x01] 1 (.v2Read 0x01 [0x2B, 0x01] 1) ∧
    (∃ t, exec (.v2Read 0x01 [0x2B, 0x01] 1) (st .v2 2 1 [0x00] calm) = .next t) :=
  ⟨test_admits_read .v2 2 1 [0x00] calm, .inr rfl, next_of_nextOf (by decide +kernel)⟩
theorem test_witness_MultiplicityZeroReadsNothing :
    let s := st .v1 0 0 [0x55] calm
    s.Admits 0x01 .read [0x2B, 0x01] 1 ∧ s.cfg.mult = 0 ∧ s.env.nextTx.fault = none := ⟨test_admits_read .v1 0 0 [0x55] calm, rfl, rfl⟩
theorem test_witness_MultiplicityOneDecodesOneReceive :
    let s := st .v1 1 0 [0xFF, 0xFF, 0x01, 0x03, 0x00, 0x20, 0xDB] calm
    s.Admits 0x01 .read [0x2B, 0x01] 1 ∧ s.cfg.mult = 1 ∧ s.env.nextTx.fault = none ∧ s.env.nextRx.fault = none ∧
      statusWireLen s.cfg.rev 1 ≤ (s.rxq ++ s.env.nextTx.arrivals ++ s.env.nextRx.arrivals).length :=
  ⟨test_admits_read .v1 1 0 [0xFF, 0xFF, 0x01, 0x03, 0x00, 0x20, 0xDB] calm, rfl, rfl, rfl, by decide⟩
theorem test_witness_MultiplicityTwoDiscardsTheEcho (echo : Nat) (h : echo = 1 ∨ echo = 0) :
    let s := st .v1 2 echo (zeros (7 + echo)) calm
    let q1 := s.rxq ++ s.env.nextTx.arrivals ++ s.env.nextRx.arrivals
    let b := ({ s.env with rx := s.env.rx.tail } : Environment).nextRx
    s.Admits 0x01 .read [0x2B, 0x01] 1 ∧ s.cfg.mult = 2 ∧ s.env.nextTx.fault = none ∧ s.env.nextRx.fault = none ∧
      b.fault = none ∧ s.cfg.echoLen = echo ∧ echo ≤ q1.length ∧
      statusWireLen s.cfg.rev 1 ≤ (q1.drop echo ++ b.arrivals).length := by
  refine ⟨test_admits_read .v1 2 echo (zeros (7 + echo)) calm, rfl, rfl, rfl, rfl, rfl, ?_⟩
  obtain rfl | rfl := h <;> decide +kernel
theorem test_witness_SendFaultEndsTheTransaction :
    let s := st .v1 2 4 [] (txFails 8)
    s.Admits 0x01 .read [0x2B, 0x01] 1 ∧ s.env.nextTx.fault = some ⟨8, [0x77]⟩ := ⟨test_admits_read .v1 2 4 [] (txFails 8), rfl⟩
theorem test_witness_EchoReceiveErrorEndsTheTransaction :
    (let s := st .v1 2 1 [] calm
     s.Admits 0x01 .read [0x2B, 0x01] 1 ∧ s.cfg.mult = 2 ∧ s.env.nextTx.fault = none ∧ s.cfg.echoLen ≠ 0 ∧
       s.env.nextRx.fault = none ∧ (s.rxq ++ s.env.nextTx.arrivals ++ s.env.nextRx.arrivals).length < s.cfg.echoLen) ∧
    (let s := st .v1 2 1 [] rxFails
     s.Admits 0x01 .read [0x2B, 0x01] 1 ∧ s.cfg.mult = 2 ∧ s.env.nextTx.fault = none ∧ s.cfg.echoLen ≠ 0 ∧
       s.env.nextRx.fault = some [0x77]) :=
  ⟨⟨test_admits_read .v1 2 1 [] calm, rfl, rfl, by decide, rfl, by decide⟩,
   ⟨test_admits_read .v1 2 1 [] rxFails, rfl, rfl, by decide, rfl⟩⟩
theorem test_witness_ReplyReceiveErrorIsTheOutcome :
    (let s := st .v1 1 0 (zeros 6) calm
     s.Admits 0x01 .read [0x2B, 0x01] 1 ∧ s.cfg.mult = 1 ∧ s.env.nextTx.fault = none ∧ s.env.nextRx.fault = none ∧
       (s.rxq ++ s.env.nextTx.arrivals ++ s.env.nextRx.arrivals).length < statusWireLen s.cfg.rev 1) ∧
    (let s := st .v1 1 0 [] rxFails
     s.Admits 0x01 .read [0x2B, 0x01] 1 ∧ s.cfg.mult = 1 ∧ s.env.nextTx.fault = none ∧ s.env.nextRx.fault = some [0x77]) :=
  ⟨⟨test_admits_read .v1 1 0 (zeros 6) calm, rfl, rfl, rfl, by decide⟩, ⟨test_admits_read .v1 1 0 [] rxFails, rfl, rfl, rfl⟩⟩
theorem test_witness_ReplyReceiveErrorAfterTheEcho :
    (let s := st .v1 2 1 (zeros 7) calm
     let b := ({ s.env with rx := s.env.rx.tail } : Environment).nextRx
     let q1 := s.rxq ++ s.env.nextTx.arrivals ++ s.env.nextRx.arrivals
     s.Admits 0x01 .read [0x2B, 0x01] 1 ∧ s.cfg.mult = 2 ∧ s.env.nextTx.fault = none ∧ s.env.nextRx.fault = none ∧
       s.cfg.echoLen ≠ 0 ∧ 1 ≤ q1.length ∧ b.fault = none ∧ (q1.drop 1 ++ b.arrivals).length < statusWireLen s.cfg.rev 1) ∧
    (let s := st .v1 2 1 (zeros 1) rxFailsNext
     let b := ({ s.env with rx := s.env.rx.tail } : Environment).nextRx
     let q1 := s.rxq ++ s.env.nextTx.arrivals ++ s.env.nextRx.arrivals
     s.Admits 0x01 .read [0x2B, 0x01] 1 ∧ s.cfg.mult = 2 ∧ s.env.nextTx.fault = none ∧ s.env.nextRx.fault = none ∧
       s.cfg.echoLen ≠ 0 ∧ 1 ≤ q1.length ∧ b.fault = some []) ∧
    (let s := st .v1 2 0 (zeros 6) calm
     s.Admits 0x01 .read [0x2B, 0x01] 1 ∧ s.cfg.mult = 2 ∧ s.env.nextTx.fault = none ∧ s.env.nextRx.fault = none ∧
       s.cfg.echoLen = 0 ∧
       (s.rxq ++ s.env.nextTx.arrivals ++ s.env.nextRx.arrivals).length < statusWireLen s.cfg.rev 1) ∧
    (let s := st .v1 2 0 [] rxFails
     s.Admits 0x01 .read [0x2B, 0x01] 1 ∧ s.cfg.mult = 2 ∧ s.env.nextTx.fault = none ∧ s.cfg.echoLen = 0 ∧
       s.env.nextRx.fault = some [0x77]) :=
  ⟨⟨test_admits_read .v1 2 1 (zeros 7) calm, by decide +kernel⟩, ⟨test_admits_read .v1 2 1 (zeros 1) rxFailsNext, by decide +kernel⟩,
   ⟨test_admits_read .v1 2 0 (zeros 6) calm, by decide +kernel⟩, ⟨test_admits_read .v1 2 0 [] rxFails, rfl, rfl, rfl, rfl⟩⟩
theorem test_witness_NoneOnlyWithMultiplicityZero :
    retOf (exec (.transact 0x01 .read [0x2B, 0x01] 1) (st .v1 0 0 [] calm)) = some (.outcome .okNone) ∧
    (st .v1 0 0 [] calm).cfg.mult = 0 ∧ (st .v1 0 0 [] calm).Admits 0x01 .read [0x2B, 0x01] 1 ∧
    retOf (exec (.transact 0x01 .read [0x2B, 0x01] 1) (st .v1 0 0 [] (txFails 0))) =
      some (.outcome (.err .transportFailure)) :=
  ⟨by decide +kernel, rfl, test_admits_read .v1 0 0 [] calm, by decide +kernel⟩
theorem test_witness_JunkBeforeTheReplyIsDropped :
    (let s := st .v1 2 2 ([0xFF, 0xFF] ++ statusFrame .v1 0x02 0x04 [0xFF]) calm
     s.Admits 0x01 .read [0x2B, 0x01] ([0xFF] : List Byte).length ∧ s.cfg.mult = 2 ∧ s.env = Environment.unplanned ∧
       ([0xFF, 0xFF] : List Byte).length = s.cfg.echoLen) ∧
    (let s := st .v2 2 0 ([] ++ statusFrame .v2 0x02 0x04 [0x10]) calm
     s.Admits 0x01 .read [0x2B, 0x01] ([0x10] : List Byte).length ∧ s.cfg.mult = 2 ∧ s.env = Environment.unplanned ∧
       stuff (statusBody .v2 0x02 0x04 [0x10]) = statusBody .v2 0x02 0x04 [0x10]) :=
  ⟨⟨test_admits_read .v1 2 2 _ calm, rfl, rfl, rfl⟩, ⟨test_admits_read .v2 2 0 _ calm, rfl, rfl, by decide +kernel⟩⟩
theorem test_witness_StuffedReplyIsTooShort :
    let s := st .v2 1 0 (statusFrame .v2 0x01 0xFF [0xFF, 0xFD]) calm
    s.Admits 0x01 .read [0x84, 0x00, 0x02, 0x00] ([0xFF, 0xFD] : List Byte).length ∧ s.cfg.rev = .v2 ∧ s.cfg.mult = 1 ∧
      s.env = Environment.unplanned ∧
      stuff (statusBody .v2 0x01 0xFF [0xFF, 0xFD]) ≠ statusBody .v2 0x01 0xFF [0xFF, 0xFD] ∧
      result (exec (.transact 0x01 .read [0x84, 0x00, 0x02, 0x00] 2) s) = some (.outcome (.err .frameTooShort), [0x82]) :=
  ⟨⟨⟨rfl, rfl⟩, by decide +kernel, by decide +kernel, by decide +kernel⟩, rfl, rfl, rfl, by decide +kernel, by decide +kernel⟩
theorem test_witness_OutcomeDoesNotDependOnTheId :
    (∃ t, exec (.transact 0x01 .read [0x2B, 0x01] 1) (st .v1 1 0 [] calm) = .next t) ∧
    (∃ t, exec (.transact 0xFE .read [0x2B, 0x01] 1) (st .v1 1 0 [] calm) = .next t) :=
  ⟨next_of_nextOf (by decide +kernel), next_of_nextOf (by decide +kernel)⟩
theorem test_witness_NothingPersistsIntoATransaction :
    IsTransaction (quiet .v2).cfg.rev 0x01 .read [0x2B, 0x01] 1 (.v2Read 0x01 [0x2B, 0x01] 1) := .inr rfl
theorem test_witness_TransactionIsTheWalkOfTheSequencer :
    (∃ t, exec (.transact 0x01 .read [0x2B, 0x01] 1) (st .v1 0 0 [] (txFails 3)) = .next t) ∧
    (∃ t, exec (.transact 0x01 .read [0x2B, 0x01] 1) (st .v1 2 1 [0x00] calm) = .next t) :=
  ⟨next_of_nextOf (by decide +kernel), next_of_nextOf (by decide +kernel)⟩

/-! Facade, admission, encoding, step, invariant. -/

theorem test_witness_FacadeOperationsAreOneTransact :
    (quiet .v1).Ready ∧ (quiet .v2).Ready ∧ (quiet .v1).cfg.rev = .v1 ∧ (quiet .v2).cfg.rev = .v2 ∧
    0xFF ≤ 0xFF ∧ 253 ≤ 253 ∧ 0xFFFF ≤ 0xFFFF ∧ 65531 ≤ 65531 ∧ (zeros 252).length ≤ 252 ∧ (zeros 65530).length ≤ 65530 := by
  refine ⟨⟨rfl, rfl⟩, ⟨rfl, rfl⟩, rfl, rfl, ?_⟩; rw [zeros_length, zeros_length]; decide
theorem test_witness_FacadeOperationsReturn (rev : Rev) :
    (quiet rev).Ready ∧ (requestFrame rev 0x01 .ping []).length ≤ (quiet rev).cfg.maxPacket ∧
    maxAddress rev ≤ maxAddress rev ∧ maxStatusParams rev ≤ maxStatusParams rev ∧
    (requestFrame rev 0x01 .read (readParams rev (maxAddress rev) (maxStatusParams rev))).length ≤ (quiet rev).cfg.maxPacket ∧
    (zeros 52).length ≤ maxWriteData rev ∧
    (requestFrame rev 0x01 .write (writeParams rev (maxAddress rev) (zeros 52))).length ≤ (quiet rev).cfg.maxPacket := by
  cases rev <;> exact ⟨⟨rfl, rfl⟩, by decide +kernel⟩
theorem test_witness_FacadeRefusesOperandsOutOfRange (rev : Rev) :
    (quiet rev).Ready ∧ maxAddress rev < maxAddress rev + 1 ∧ maxStatusParams rev < maxStatusParams rev + 1 ∧
    maxWriteData rev < (zeros (maxWriteData rev + 1)).length := by
  refine ⟨⟨rfl, rfl⟩, Nat.lt_succ_self _, Nat.lt_succ_self _, ?_⟩; rw [zeros_length]; exact Nat.lt_succ_self _
theorem test_witness_TransactAdmissionOrder :
    State.reset.bound = false ∧
    (let s := { quiet .v1 with fsm := Fsm.awaitFirst }
     s.bound = true ∧ s.fsm ≠ .idle) ∧
    (quiet .v1).Ready ∧ ¬ (zeros 254).length ≤ maxRequestParams .v1 ∧ ¬ 254 ≤ maxStatusParams .v1 ∧
    ((zeros 59).length ≤ maxRequestParams .v1 ∧ 253 ≤ maxStatusParams .v1) ∧
    ¬ (requestFrame .v1 0x01 .read (zeros 59)).length ≤ (quiet .v1).cfg.maxPacket :=
  ⟨rfl, by decide, ⟨rfl, rfl⟩, by decide +kernel⟩
theorem test_witness_RequestsRunOnlyInTheirRevision :
    (quiet .v1).Ready ∧ (quiet .v1).cfg.rev ≠ .v2 ∧ (quiet .v1).cfg.rev = .v1 := ⟨⟨rfl, rfl⟩, by decide, rfl⟩
theorem test_witness_DecodeInvertsEncode :
    (WellFormed (.v1Read 0x01 (zeros 253) 253) ∧ (Instr.v1Read 0x01 (zeros 253) 253).wireFrame.isSome) ∧
    (WellFormed (.v2Write 0x01 (zeros 65532) 65531) ∧ (Instr.v2Write 0x01 (zeros 65532) 65531).wireFrame.isSome) ∧
    (WellFormed (.v1Status 0x01 0x00 (zeros 253) 0x00 9) ∧ (Instr.v1Status 0x01 0x00 (zeros 253) 0x00 9).wireFrame.isSome) ∧
    (WellFormed (.v2Status 0x01 0x54 0x00 (zeros 65531) 0x0000 0) ∧
      (Instr.v2Status 0x01 0x54 0x00 (zeros 65531) 0x0000 0).wireFrame.isSome) := by
  simp [WellFormed, Instr.wellFormed, Instr.wireFrame, requestFits, maxRequestParams, maxStatusParams]
theorem test_witness_EncodeInvertsDecode :
    decode .v1 .status 1 [0xFF, 0xFF, 0x01, 0x03, 0x00, 0x20, 0xDB, 0x99] = .ok (.v1Status 0x01 0x00 [0x20] 0xDB 1, [0x99]) ∧
    decode .v2 .request 0 [0xFF, 0xFF, 0xFD, 0x00, 0x01, 0x03, 0x00, 0x01, 0x3A, 0x14] = .ok (.v2Ping 0x01 [] 0, []) := by
  decide +kernel
theorem test_witness_StepRunsTheIssuedInstruction :
    ((quiet .v1).fsm = .idle ∧ (quiet .v1).pending = [] ∧ { quiet .v1 with fsm := Fsm.done }.fsm ≠ .idle) ∧
    (let s (c : Command) := { quiet .v1 with pending := [c, .call .teardown] }
     ∀ c, (s c).Ready ∧ (s c).pending = c :: [.call .teardown]) ∧
    ((∀ b, Instr.teardown ≠ .writeFrame b) ∧ (∀ n, Instr.teardown ≠ .readExact n)) ∧
    decode .v1 .request 0 [0xFF, 0xFF, 0x01, 0x02, 0x01, 0xFB] = .ok (.v1Ping 0x01 [] 0, []) ∧
    decodeFrame .v1 .request 0 [] = .error .tooShort ∧
    (let s := { State.reset with pending := [.call .teardown] }
     s.bound = false ∧ s.fsm = .idle ∧ s.pending = .call .teardown :: [] ∧
       ∀ i, Command.call .teardown = .call i → isConstruct i = false) :=
  ⟨by decide, fun _ => ⟨⟨rfl, rfl⟩, rfl⟩, ⟨nofun, nofun⟩, by decide +kernel, by decide +kernel,
    rfl, rfl, rfl, fun _ h => by cases h; rfl⟩

/-- `quiet rev` meets the invariant. -/
theorem test_quiet_inv (rev : Rev) : (quiet rev).Inv where
  dirRx := rfl
  line := rfl
  mult := by cases rev <;> decide
  dead := fun _ => ⟨rfl, rfl, rfl, rfl⟩
  out := fun h => nomatch h
  waiting := fun h => h.elim (fun h => nomatch h) (fun h => nomatch h)
  packet := Nat.zero_le _
  bound := fun h => absurd rfl h

theorem test_witness_EveryStepKeepsTheInvariant :
    (quiet .v1).Inv ∧ (∃ t, step (quiet .v1) = .next t) ∧
    (∃ t, exec (.ping 0x01) (quiet .v1) = .next t) := ⟨test_quiet_inv .v1, ⟨_, rfl⟩, next_of_nextOf (by decide +kernel)⟩

end Sys2Proof.Tests
end

section
/-! PROOFS of the statements about the request layouts (R61, R62) and the multiplicities CONSTRUCT takes (R76). -/

namespace Sys2Proof.Proofs

open Sys2Proof.Machine Sys2Proof.Laws

/-! ### ENCODE_REQUEST past its two tests -/

/-- Parameters that fit the length field and a frame that fits the packet pass both tests of R94 and R95. -/
theorem encodeRequest_of_fits {rev : Rev} {maxPacket : Nat} {id : Byte} {instr : WireInstr} {params : List Byte}
    (hp : params.length ≤ maxRequestParams rev) (hm : (requestFrame rev id instr params).length ≤ maxPacket) :
    encodeRequest rev maxPacket id instr params = .ok (requestFrame rev id instr params) := by
  rw [encodeRequest, if_neg (Nat.not_lt.2 hp), if_neg (Nat.not_lt.2 hm)]

/-- What both ENCODE_REQUEST rows do on a connection of their revision (R94, R95). -/
theorem onRevision_encodeRequest_of_fits {s : State} {rev : Rev} {id : Byte} {instr : WireInstr} {params : List Byte}
    (hr : s.Ready) (hv : s.cfg.rev = rev) (hp : params.length ≤ maxRequestParams rev)
    (hm : (requestFrame rev id instr params).length ≤ s.cfg.maxPacket) :
    (s.onRevision rev fun s => s.giveBytes (encodeRequest rev s.cfg.maxPacket id instr params)) =
      .next { s with ret := .bytes (requestFrame rev id instr params) } := by
  rw [onRevision_of_ready hr hv, encodeRequest_of_fits hp hm]
  rfl

/-! ### The request frames, byte by byte -/

theorem le16_eq (v : Word) : le16 v = [BitVec.ofNat 8 v.toNat, BitVec.ofNat 8 (v.toNat / 256)] := by
  rw [← le16_ofNat v.toNat v.isLt, BitVec.ofNat_toNat, BitVec.setWidth_eq]

theorem requestFrame_v1_length (id : Byte) (instr : WireInstr) (params : List Byte) :
    (requestFrame .v1 id instr params).length = params.length + 6 := by
  rw [requestFrame, requestFrameWith, v1Frame_length, requestBody_length]

/-- The length field holds P + 3 whole, because P + 3 is below 65536 (R67, R77). -/
theorem requestBody_v2_eq (id : Byte) (instr : WireInstr) {params : List Byte} (hp : params.length ≤ 65532) :
    requestBody .v2 id instr params =
      [id, BitVec.ofNat 8 (params.length + 3), BitVec.ofNat 8 ((params.length + 3) / 256), instrCode instr] ++ params := by
  rw [requestBody, le16_ofNat _ (by omega)]
  rfl

theorem v2Frame_eq (w : Switches) (body : List Byte) :
    v2Frame w body =
      [0xFF, 0xFF, 0xFD, 0x00] ++ stuff body ++
        [BitVec.ofNat 8 (crc16OfBody w body (stuff body)).toNat,
         BitVec.ofNat 8 ((crc16OfBody w body (stuff body)).toNat / 256)] := by
  rw [v2Frame, le16_eq]
  rfl

/-- P + 10 bytes, and one for each byte STUFF inserted: a stuffed body is no shorter than the body (R62). -/
theorem requestFrame_v2_length (id : Byte) (instr : WireInstr) (params : List Byte) :
    (requestFrame .v2 id instr params).length =
      params.length + 10 +
        ((stuff (requestBody .v2 id instr params)).length - (requestBody .v2 id instr params).length) := by
  have hbody : (requestBody .v2 id instr params).length = params.length + 4 := requestBody_length .v2 id instr params
  have hstuff := stuff_length_le (requestBody .v2 id instr params)
  rw [requestFrame, requestFrameWith, v2Frame_length]
  omega

/-! ### The obligations -/

/-- Settles O13: the frame ENCODE_REQUEST builds is the layout of R61 as it stands. -/
theorem v1RequestLayout : Obligations.V1RequestLayout := by
  intro s id instr params hr hv hp hm body
  have hlen := requestFrame_v1_length id instr params
  refine ⟨?_, hlen⟩
  rw [exec_encodeRequestV1]
  exact onRevision_encodeRequest_of_fits hr hv hp (hlen.trans_le hm)

/-- Settles O14: `requestFrame` is the layout of R62 once the two 16-bit fields are written as their bytes. -/
theorem v2RequestLayout : Obligations.V2RequestLayout := by
  intro s id instr params hr hv hp body crc frame hm
  have hbody : requestBody .v2 id instr params = body := requestBody_v2_eq id instr hp
  have hframe : requestFrame .v2 id instr params = frame := by
    rw [requestFrame, requestFrameWith, hbody]
    exact v2Frame_eq switches body
  constructor
  · rw [exec_encodeRequestV2, ← hframe]
    exact onRevision_encodeRequest_of_fits hr hv hp (hframe ▸ hm)
  · rw [← hframe, ← hbody]
    exact requestFrame_v2_length id instr params

/-- Settles O26: CONSTRUCT tests BOUND first and the multiplicity next (R200, R76). -/
theorem constructRefusesMultiplicityThree : Obligations.ConstructRefusesMultiplicityThree := by
  intro s ch dl rev mult echo tmo maxp
  rw [exec_construct]
  constructor
  · intro hbound
    rw [if_pos hbound]
  · intro hfree hmult
    rw [if_neg (by simp [hfree]), if_pos hmult]

end Sys2Proof.Proofs
end

section
/-! PROOFS of the statements about the Frame Codec: STUFF and UNSTUFF (R90, R103), the status frames read back (R102) and the
check values of encoded frames (R104). -/

namespace Sys2Proof.Proofs

open Sys2Proof.Machine Sys2Proof.Laws

/-! ### STUFF, index by index -/

/-- Index `i` of `b` completes the pattern of R90, where `p2`, `p1` are the two logical bytes before `b`. -/
def completesPattern (p2 p1 : Byte) (b : List Byte) (i : Nat) : Bool :=
  isPattern (byteAt (p2 :: p1 :: b) i) (byteAt (p1 :: b) i) (byteAt b i)

/-- The scan emits the byte of each index, and FD behind it where that index completes the pattern: the window moves along
with the scan, so index `i + 1` of `x :: b` after `p2`, `p1` is index `i` of `b` after `p1`, `x`. -/
theorem stuffFrom_eq_flatMap (b : List Byte) : ∀ p2 p1, stuffFrom p2 p1 b =
    (List.range b.length).flatMap fun i => byteAt b i :: if completesPattern p2 p1 b i then [0xFD] else [] := by
  induction b with
  | nil => intros; rfl
  | cons x b ih =>
    intro p2 p1
    rw [List.length_cons, List.range_succ_eq_map, List.flatMap_cons, List.flatMap_map, stuffFrom, ih p1 x]
    show _ = (x :: if isPattern p2 p1 x then [0xFD] else []) ++
      (List.range b.length).flatMap fun i => byteAt b i :: if completesPattern p1 x b i then [0xFD] else []
    split <;> rfl

/-- Before the first byte the window holds 00, which takes part in no match: an index completes the pattern exactly when it
and the two indices before it hold FF FF FD. -/
theorem completesPattern_zero_iff (b : List Byte) (i : Nat) :
    completesPattern 0 0 b i = true ↔
      2 ≤ i ∧ b.getD (i - 2) 0 = 0xFF ∧ b.getD (i - 1) 0 = 0xFF ∧ b.getD i 0 = 0xFD := by
  match i with
  | 0 => simp [completesPattern, isPattern, byteAt]
  | 1 => simp [completesPattern, isPattern, byteAt]
  | i + 2 => simp [completesPattern, isPattern, byteAt, and_assoc]

/-- One element for each index, and one more for each index that `p` picks. -/
theorem length_flatMap_cons_ite (p : Nat → Bool) (f : Nat → Byte) (x : Byte) (l : List Nat) :
    (l.flatMap fun i => f i :: if p i then [x] else []).length = l.length + (l.filter p).length := by
  induction l with
  | nil => rfl
  | cons i l ih =>
    rw [List.flatMap_cons, List.length_append, ih]
    cases h : p i <;> simp [h] <;> omega

/-! ### Bytes and slices at a boundary of two sequences -/

/-- The slice that starts behind `a` and is as long as `b`. -/
theorem slice_middle (a b c : List Byte) {i j : Nat} (hi : i = a.length) (hj : j = a.length + b.length) :
    slice (a ++ b ++ c) i j = b := by
  subst hi hj
  simp [slice]

/-! ### VERIFY of a value just computed -/

@[simp] theorem verify_chk8 (w : Switches) (range : List Byte) : verify w (.v1 range (chk8 range)) = true := by
  simp [verify]

@[simp] theorem verify_crc16OfBody (w : Switches) (body wbody : List Byte) :
    verify w (.v2 body wbody (crc16OfBody w body wbody)) = true := by
  simp [verify]

/-! ### Where the fields of a frame stand -/

theorem slice_v1Frame (body t : List Byte) : slice (v1Frame body ++ t) 2 (2 + body.length) = body := by
  rw [v1Frame, List.append_assoc]
  exact slice_middle v1Marker body _ rfl rfl

theorem byteAt_v1Frame_check (body t : List Byte) : byteAt (v1Frame body ++ t) (2 + body.length) = chk8 body := by
  have hlen : (v1Marker ++ body).length = 2 + body.length := by rw [List.length_append]; rfl
  rw [v1Frame, List.append_assoc, ← hlen]
  exact byteAt_append (v1Marker ++ body) _ 0

theorem slice_v2Frame (w : Switches) (body t : List Byte) :
    slice (v2Frame w body ++ t) 4 (4 + (stuff body).length) = stuff body := by
  rw [v2Frame, List.append_assoc]
  exact slice_middle v2Marker (stuff body) _ rfl rfl

/-- The two bytes behind the stuffed body, low byte first, are the CRC (R62, R64). -/
theorem fromLe16_v2Frame_check (w : Switches) (body t : List Byte) :
    fromLe16 (byteAt (v2Frame w body ++ t) (4 + (stuff body).length))
      (byteAt (v2Frame w body ++ t) (4 + (stuff body).length + 1)) = crc16OfBody w body (stuff body) := by
  have hlen : (v2Marker ++ stuff body).length = 4 + (stuff body).length := by rw [List.length_append]; rfl
  have hlo := byteAt_append (v2Marker ++ stuff body) (le16 (crc16OfBody w body (stuff body)) ++ t) 0
  have hhi := byteAt_append (v2Marker ++ stuff body) (le16 (crc16OfBody w body (stuff body)) ++ t) 1
  rw [Nat.add_zero] at hlo
  rw [v2Frame, List.append_assoc, ← hlen, hlo, hhi]
  exact fromLe16_le16 _

/-! ### DECODE_STATUS of an encoded frame, whatever follows it -/

theorem decodeStatusV1_statusFrame_append (id err : Byte) {params : List Byte} (hp : params.length ≤ 253) (t : List Byte) :
    decodeStatusV1 params.length (statusFrame .v1 id err params ++ t) =
      .frame { id := id, instr := none, err := err, params := params,
               check := .v1 (chk8 (statusBody .v1 id err params)) } := by
  have hframe : statusFrame .v1 id err params = v1Frame (statusBody .v1 id err params) := rfl
  have hbody : 5 + params.length = 2 + (statusBody .v1 id err params).length := by
    rw [statusBody_length]
    show 5 + params.length = 2 + (params.length + 3)
    omega
  have hlen : (statusFrame .v1 id err params ++ t).length = params.length + 6 + t.length := by
    rw [List.length_append, hframe, v1Frame_length, statusBody_length]
  have hfield : (byteAt (statusFrame .v1 id err params ++ t) 3).toNat = params.length + 2 :=
    (BitVec.toNat_ofNat ..).trans (Nat.mod_eq_of_lt (by omega))
  have hparams : slice (statusFrame .v1 id err params ++ t) 5 (5 + params.length) = params := by
    rw [hframe, v1Frame, List.append_assoc]
    exact slice_middle [0xFF, 0xFF, id, BitVec.ofNat 8 (params.length + 2), err] params _ rfl rfl
  have hrange : slice (statusFrame .v1 id err params ++ t) 2 (5 + params.length) = statusBody .v1 id err params := by
    rw [hbody]
    exact slice_v1Frame _ t
  have hcheck : byteAt (statusFrame .v1 id err params ++ t) (5 + params.length) = chk8 (statusBody .v1 id err params) := by
    rw [hbody]
    exact byteAt_v1Frame_check _ t
  have hmarker : slice (statusFrame .v1 id err params ++ t) 0 2 = v1Marker := rfl
  rw [decodeStatusV1, hfield, hlen, hparams, hrange, hcheck, hmarker, if_neg (by omega), if_neg (by simp),
    if_neg (by omega), if_neg (by simp), if_pos (verify_chk8 _ _)]
  rfl

/-- The length field stands in front of the first byte that stuffing can insert, so it is read before unstuffing (R99). -/
theorem v2Frame_statusBody_length_field (w : Switches) (id err : Byte) {params : List Byte} (hp : params.length ≤ 65531)
    (t : List Byte) :
    byteAt (v2Frame w (statusBody .v2 id err params) ++ t) 4 = id ∧
    (fromLe16 (byteAt (v2Frame w (statusBody .v2 id err params) ++ t) 5)
      (byteAt (v2Frame w (statusBody .v2 id err params) ++ t) 6)).toNat = params.length + 4 := by
  obtain ⟨r, hr⟩ := stuff_three id (lo8 (BitVec.ofNat 16 (params.length + 4))) (hi8 (BitVec.ofNat 16 (params.length + 4)))
    (statusInstrByte :: err :: params)
  have hstuff : stuff (statusBody .v2 id err params) = _ := hr
  rw [v2Frame, hstuff]
  refine ⟨rfl, ?_⟩
  calc (fromLe16 (lo8 (BitVec.ofNat 16 (params.length + 4))) (hi8 (BitVec.ofNat 16 (params.length + 4)))).toNat
      = (BitVec.ofNat 16 (params.length + 4)).toNat := by rw [fromLe16_le16]
    _ = params.length + 4 := (BitVec.toNat_ofNat ..).trans (Nat.mod_eq_of_lt (by omega))

theorem decodeStatusV2With_statusFrame_append (w : Switches) (id err : Byte) {params : List Byte}
    (hp : params.length ≤ 65531) (t : List Byte) :
    decodeStatusV2With w params.length (statusFrameWith w .v2 id err params ++ t) =
      .frame { id := id, instr := some 0x55, err := err, params := params,
               check := .v2 (crc16OfBody w (statusBody .v2 id err params) (stuff (statusBody .v2 id err params))) } := by
  obtain ⟨hid, hfield⟩ := v2Frame_statusBody_length_field w id err hp t
  have hframe : statusFrameWith w .v2 id err params = v2Frame w (statusBody .v2 id err params) := rfl
  have hlen : (v2Frame w (statusBody .v2 id err params) ++ t).length =
      (stuff (statusBody .v2 id err params)).length + 6 + t.length := by
    rw [List.length_append, v2Frame_length]
  have hstuff := stuff_length_le (statusBody .v2 id err params)
  have hbody : (statusBody .v2 id err params).length = params.length + 4 + 1 := statusBody_length ..
  have htake : unstuffTake ((v2Frame w (statusBody .v2 id err params) ++ t).drop 4) (params.length + 4 + 1) =
      some (statusBody .v2 id err params, (stuff (statusBody .v2 id err params)).length) := by
    rw [v2Frame, List.append_assoc, List.append_assoc, ← hbody]
    exact unstuffTakeFrom_stuffFrom _ _ 0 0
  have hmarker : slice (v2Frame w (statusBody .v2 id err params) ++ t) 0 4 = v2Marker := rfl
  have hinstr : byteAt (statusBody .v2 id err params) 3 = statusInstrByte := rfl
  have herr : byteAt (statusBody .v2 id err params) 4 = err := rfl
  have hparams : slice (statusBody .v2 id err params) 5 (5 + params.length) = params := by
    rw [← List.append_nil (statusBody .v2 id err params)]
    exact slice_middle (id :: le16 (BitVec.ofNat 16 (params.length + 4)) ++ [statusInstrByte, err]) params [] rfl rfl
  rw [hframe, decodeStatusV2With, hfield, htake, hlen, hmarker, if_neg (by omega), if_neg (by simp)]
  dsimp only
  rw [fromLe16_v2Frame_check, slice_v2Frame, hparams, hid, hinstr, herr, if_neg (by omega), if_neg (by simp),
    if_neg (by simp), if_pos (verify_crc16OfBody _ _ _)]
  rfl

/-! ### The obligations -/

/-- Settles O17: every check of DECODE_STATUS passes on the encoded frame, with nothing behind it. -/
theorem statusFrameRoundTrip : Obligations.StatusFrameRoundTrip := by
  constructor
  · intro id err params hp
    simpa using decodeStatusV1_statusFrame_append id err hp []
  · intro w id err params hp
    simpa using decodeStatusV2With_statusFrame_append w id err hp []

/-- Settles O9: the scan, index by index. -/
theorem stuffInsertsAfterEachPattern : Obligations.StuffInsertsAfterEachPattern := by
  intro s b hr hit
  have hhit : ∀ i, completesPattern 0 0 b i = decide (hit i) := fun i => by
    rw [Bool.eq_iff_iff, completesPattern_zero_iff, decide_eq_true_iff]
  have hstuff : stuff b = (List.range b.length).flatMap fun i => byteAt b i :: if decide (hit i) then [0xFD] else [] := by
    rw [stuff, stuffFrom_eq_flatMap]
    simp only [hhit]
  constructor
  · rw [exec_stuff, answer_of_ready hr, hstuff]
    simp only [decide_eq_true_iff]
    rfl
  · rw [hstuff, length_flatMap_cons_ite, List.length_range]

/-- Settles O10: STUFF and UNSTUFF scan the same logical bytes; the double stuffing is the spec's example. -/
theorem unstuffUndoesStuff : Obligations.UnstuffUndoesStuff :=
  ⟨fun b => unstuffFrom_stuffFrom b 0 0, fun b t => unstuffTakeFrom_stuffFrom t b 0 0, by decide⟩

/-- Settles O18: the bytes between marker and check value are the range the value was computed from. -/
theorem encodedFramesVerify : Obligations.EncodedFramesVerify := by
  refine ⟨?_, ?_, fun _ _ _ => ⟨rfl, rfl⟩, fun _ _ _ => ⟨rfl, rfl⟩⟩
  · intro body frame
    have hend : frame.length - 1 = 2 + body.length := by rw [v1Frame_length]; omega
    have hrange := slice_v1Frame body []
    have hcheck := byteAt_v1Frame_check body []
    rw [List.append_nil] at hrange hcheck
    rw [hend, hrange, hcheck]
    exact verify_chk8 _ _
  · intro w body frame
    have hend : frame.length - 2 = 4 + (stuff body).length := by rw [v2Frame_length]; omega
    have hlast : frame.length - 1 = 4 + (stuff body).length + 1 := by rw [v2Frame_length]; omega
    have hrange := slice_v2Frame w body []
    have hcheck := fromLe16_v2Frame_check w body []
    rw [List.append_nil] at hrange hcheck
    rw [hend, hlast, hrange, hcheck]
    exact verify_crc16OfBody _ _ _

end Sys2Proof.Proofs
end

section
/-! PROOFS of the statements about the connection's life (R201): no operation but CONSTRUCT writes the configuration. -/

namespace Sys2Proof.Proofs

open Sys2Proof.Machine Sys2Proof.Laws

/-! ### The operations on the line leave the configuration alone -/

@[simp] theorem writeFrame_cfg (b : List Byte) (s : State) : (writeFrame b s).1.cfg = s.cfg := by
  rw [writeFrame, drive_cfg, send_cfg, drive_cfg]

@[simp] theorem readExact_cfg (discard : Bool) (n : Nat) (s : State) : (readExact discard n s).1.cfg = s.cfg := by
  rw [readExact_eq]

@[simp] theorem transaction_cfg (s : State) (req : Request) (frame : List Byte) : (s.transaction req frame).cfg = s.cfg := by
  rw [transaction_eq, returned_cfg]

/-! ### The obligation -/

/-- Settles O30: of the six ways an instruction can go on, only CONSTRUCT's writes the configuration, and it starts unbound. -/
theorem onlyConstructWritesTheConfiguration : Obligations.OnlyConstructWritesTheConfiguration := by
  intro i s t h
  cases did_of_exec h with
  | constructed free _ => exact ⟨nofun, fun _ => free⟩
  | unbound => exact ⟨fun _ => rfl, nofun⟩
  | gave _ plain v =>
    obtain ⟨notConstruct, -⟩ := plain
    exact ⟨fun _ => give_cfg s v, fun hc => by simp [notConstruct] at hc⟩
  | wrote _ _ v => exact ⟨fun _ => (give_cfg _ v).trans (writeFrame_cfg ..), nofun⟩
  | received _ v => exact ⟨fun _ => (give_cfg _ v).trans (readExact_cfg ..), nofun⟩
  | transacted _ plain =>
    obtain ⟨notConstruct, -⟩ := plain
    exact ⟨fun _ => transaction_cfg .., fun hc => by simp [notConstruct] at hc⟩

end Sys2Proof.Proofs
end

section
/-! PROOFS of the statements about the encoding (R60 to R64, R69): decoder and encoder are inverse to each other. A V1 frame is
`v1StatusBytes` of its fields, a V2 frame `v2Wire` of its logical body, whatever check value it carries; the fields of both are
read here once, and the other way round. -/

namespace Sys2Proof.Proofs

open Sys2Proof.Machine Sys2Proof.Laws

/-! ### An instruction and its frame -/

/-- The instruction a frame is the encoding of. -/
def frameInstr : WireFrame → Instr
  | .request rev instr id params n => Instr.request rev instr id params n
  | .v1Status id err params check n => .v1Status id err params check n
  | .v2Status id instr err params check n => .v2Status id instr err params check n

theorem wireFrame_frameInstr (f : WireFrame) : (frameInstr f).wireFrame = some f := by
  cases f with
  | request rev instr id params n => cases rev <;> cases instr <;> rfl
  | v1Status => rfl
  | v2Status => rfl

theorem eq_frameInstr_of_wireFrame {i : Instr} {f : WireFrame} (h : i.wireFrame = some f) : i = frameInstr f := by
  cases i <;> cases h <;> rfl

theorem encode_frameInstr (f : WireFrame) : encode (frameInstr f) = some f.bytes := by
  rw [encode, wireFrame_frameInstr]
  rfl

theorem wellFormed_request (rev : Rev) (instr : WireInstr) (id : Byte) (params : List Byte) (n : Nat) :
    (Instr.request rev instr id params n).wellFormed = requestFits rev params.length n := by
  cases rev <;> cases instr <;> rfl

theorem length_le_of_wellFormed_request {rev : Rev} {instr : WireInstr} {id : Byte} {params : List Byte} {n : Nat}
    (h : WellFormed (Instr.request rev instr id params n)) : params.length ≤ maxRequestParams rev := by
  rw [WellFormed, wellFormed_request, requestFits] at h
  exact of_decide_eq_true (Bool.and_eq_true_iff.1 h).1

/-! ### The fields of a V1 frame -/

theorem v1StatusBytes_append_length (id err : Byte) (params : List Byte) (check : Byte) (t : List Byte) :
    (v1StatusBytes id err params check ++ t).length = params.length + 6 + t.length := by
  simp [v1StatusBytes, v1Marker, statusBody]
  omega

theorem v1StatusBytes_length_field (id err : Byte) {params : List Byte} (hp : params.length ≤ 253) (check : Byte)
    (t : List Byte) : (byteAt (v1StatusBytes id err params check ++ t) 3).toNat = params.length + 2 :=
  (BitVec.toNat_ofNat ..).trans (Nat.mod_eq_of_lt (by omega))

theorem v1StatusBytes_body (id err : Byte) (params : List Byte) (check : Byte) (t : List Byte) :
    slice (v1StatusBytes id err params check ++ t) 2 (5 + params.length) = statusBody .v1 id err params := by
  rw [v1StatusBytes, List.append_assoc]
  refine slice_middle v1Marker _ _ rfl ?_
  rw [statusBody_length]
  show 5 + params.length = 2 + (params.length + 3)
  omega

theorem v1StatusBytes_params (id err : Byte) (params : List Byte) (check : Byte) (t : List Byte) :
    slice (v1StatusBytes id err params check ++ t) 5 (5 + params.length) = params := by
  rw [v1StatusBytes, List.append_assoc]
  exact slice_middle [0xFF, 0xFF, id, BitVec.ofNat 8 (params.length + 2), err] params _ rfl rfl

theorem v1StatusBytes_check (id err : Byte) (params : List Byte) (check : Byte) (t : List Byte) :
    byteAt (v1StatusBytes id err params check ++ t) (5 + params.length) = check := by
  have hlen : (v1Marker ++ statusBody .v1 id err params).length = 5 + params.length := by
    simp [v1Marker, statusBody]
    omega
  rw [v1StatusBytes, List.append_assoc, ← hlen]
  exact byteAt_append _ _ 0

theorem v1StatusBytes_rest (id err : Byte) (params : List Byte) (check : Byte) (t : List Byte) :
    (v1StatusBytes id err params check ++ t).drop (6 + params.length) = t := by
  refine List.drop_left' ?_
  rw [← List.append_nil (v1StatusBytes id err params check), v1StatusBytes_append_length, List.length_nil]
  omega

/-- A V1 request is laid out as a V1 status frame whose error byte is the instruction code (R61, R63). -/
theorem requestFrame_v1_eq (id : Byte) (instr : WireInstr) (params : List Byte) :
    requestFrame .v1 id instr params =
      v1StatusBytes id (instrCode instr) params (chk8 (statusBody .v1 id (instrCode instr) params)) := rfl

theorem statusFrame_v1_eq (id err : Byte) (params : List Byte) :
    statusFrame .v1 id err params = v1StatusBytes id err params (chk8 (statusBody .v1 id err params)) := rfl

theorem byteAt_eq_getElem {b : List Byte} {k : Nat} (h : k < b.length) : byteAt b k = b[k] := by simp [byteAt, h]

/-- A sequence is what stands before an index, the byte there, and what stands behind. -/
theorem take_byteAt_drop {b : List Byte} {k : Nat} (h : k < b.length) : b.take k ++ byteAt b k :: b.drop (k + 1) = b := by
  rw [byteAt_eq_getElem h, ← List.drop_eq_getElem_cons h, List.take_append_drop]

/-- Bytes that open with the V1 marker and are as long as their length field says are a V1 frame and a rest. -/
theorem eq_v1StatusBytes_append {b : List Byte} {k : Nat} (hmarker : slice b 0 2 = v1Marker)
    (hfield : (byteAt b 3).toNat = k + 2) (hlen : 6 + k ≤ b.length) :
    (slice b 5 (5 + k)).length = k ∧
    b = v1StatusBytes (byteAt b 2) (byteAt b 4) (slice b 5 (5 + k)) (byteAt b (5 + k)) ++ b.drop (6 + k) := by
  match b, (show 5 ≤ b.length by omega), hmarker, hfield, hlen with
  | b0 :: b1 :: b2 :: b3 :: b4 :: r, _, hmarker, hfield, hlen =>
    have hr : k < r.length := by simp only [List.length_cons] at hlen; omega
    have hcut := take_byteAt_drop hr
    have hslice : slice (b0 :: b1 :: b2 :: b3 :: b4 :: r) 5 (5 + k) = r.take k := by simp [slice]
    have hcheck : byteAt (b0 :: b1 :: b2 :: b3 :: b4 :: r) (5 + k) = byteAt r k := by
      rw [byteAt_drop]
      rfl
    have hrest : (b0 :: b1 :: b2 :: b3 :: b4 :: r).drop (6 + k) = r.drop (k + 1) := by
      rw [show 6 + k = 5 + (k + 1) by omega, ← List.drop_drop]
      rfl
    have htake : (r.take k).length = k := List.length_take_of_le hr.le
    have hb3 : BitVec.ofNat 8 (k + 2) = b3 := by
      rw [← hfield, BitVec.ofNat_toNat, BitVec.setWidth_eq]
      rfl
    rw [hslice, hcheck, hrest]
    refine ⟨htake, ?_⟩
    have h01 : [b0, b1] = v1Marker := hmarker
    calc b0 :: b1 :: b2 :: b3 :: b4 :: r
        = v1Marker ++ [b2, BitVec.ofNat 8 ((r.take k).length + 2), b4] ++ (r.take k ++ byteAt r k :: r.drop (k + 1)) := by
          rw [hcut, htake, hb3, ← h01]
          rfl
      _ = _ := by simp [v1StatusBytes, statusBody, byteAt]

/-! ### The fields of a V2 frame -/

/-- The logical body of a V2 frame: id, the length of what follows with the check value counted (R67), and that. -/
def v2Body (id : Byte) (payload : List Byte) : List Byte := id :: le16 (BitVec.ofNat 16 (payload.length + 2)) ++ payload

/-- The wire bytes of a logical body with the check value they carry. -/
def v2Wire (body : List Byte) (check : Word) : List Byte := v2Marker ++ stuff body ++ le16 check

theorem requestFrame_v2_eq (id : Byte) (instr : WireInstr) (params : List Byte) :
    requestFrame .v2 id instr params =
      v2Wire (v2Body id (instrCode instr :: params))
        (crc16OfBody switches (v2Body id (instrCode instr :: params)) (stuff (v2Body id (instrCode instr :: params)))) := rfl

theorem v2StatusBytes_eq_v2Wire (id instr err : Byte) (params : List Byte) (check : Word) :
    v2StatusBytes id instr err params check = v2Wire (v2Body id (instr :: err :: params)) check := rfl

theorem v2Body_length (id : Byte) (payload : List Byte) : (v2Body id payload).length = payload.length + 2 + 1 := by
  simp [v2Body, le16]

theorem v2Wire_append_length (body : List Byte) (check : Word) (t : List Byte) :
    (v2Wire body check ++ t).length = (stuff body).length + 6 + t.length := by
  simp [v2Wire, v2Marker]
  omega

theorem v2Wire_marker (body : List Byte) (check : Word) (t : List Byte) : slice (v2Wire body check ++ t) 0 4 = v2Marker := rfl

/-- The id and the length field stand in front of the first byte that stuffing can insert. -/
theorem v2Wire_header (id : Byte) {payload : List Byte} (hp : payload.length ≤ 65533) (check : Word) (t : List Byte) :
    byteAt (v2Wire (v2Body id payload) check ++ t) 4 = id ∧
    (fromLe16 (byteAt (v2Wire (v2Body id payload) check ++ t) 5)
      (byteAt (v2Wire (v2Body id payload) check ++ t) 6)).toNat = payload.length + 2 := by
  obtain ⟨r, hr⟩ := stuff_three id (lo8 (BitVec.ofNat 16 (payload.length + 2))) (hi8 (BitVec.ofNat 16 (payload.length + 2)))
    payload
  have hstuff : stuff (v2Body id payload) = _ := hr
  rw [v2Wire, hstuff]
  refine ⟨rfl, ?_⟩
  calc (fromLe16 (lo8 (BitVec.ofNat 16 (payload.length + 2))) (hi8 (BitVec.ofNat 16 (payload.length + 2)))).toNat
      = (BitVec.ofNat 16 (payload.length + 2)).toNat := by rw [fromLe16_le16]
    _ = payload.length + 2 := (BitVec.toNat_ofNat ..).trans (Nat.mod_eq_of_lt (by omega))

theorem v2Wire_unstuffTake (body : List Byte) (check : Word) (t : List Byte) :
    unstuffTake ((v2Wire body check ++ t).drop 4) body.length = some (body, (stuff body).length) := by
  rw [v2Wire, List.append_assoc, List.append_assoc]
  exact unstuffTakeFrom_stuffFrom _ _ 0 0

theorem v2Wire_body (body : List Byte) (check : Word) (t : List Byte) :
    slice (v2Wire body check ++ t) 4 (4 + (stuff body).length) = stuff body := by
  rw [v2Wire, List.append_assoc]
  exact slice_middle v2Marker (stuff body) _ rfl rfl

theorem v2Wire_check (body : List Byte) (check : Word) (t : List Byte) :
    fromLe16 (byteAt (v2Wire body check ++ t) (4 + (stuff body).length))
      (byteAt (v2Wire body check ++ t) (4 + (stuff body).length + 1)) = check := by
  have hlen : (v2Marker ++ stuff body).length = 4 + (stuff body).length := by rw [List.length_append]; rfl
  have hlo := byteAt_append (v2Marker ++ stuff body) (le16 check ++ t) 0
  have hhi := byteAt_append (v2Marker ++ stuff body) (le16 check ++ t) 1
  rw [Nat.add_zero] at hlo
  rw [v2Wire, List.append_assoc, ← hlen, hlo, hhi]
  exact fromLe16_le16 check

theorem v2Wire_rest (body : List Byte) (check : Word) (t : List Byte) :
    (v2Wire body check ++ t).drop (6 + (stuff body).length) = t := by
  refine List.drop_left' ?_
  rw [← List.append_nil (v2Wire body check), v2Wire_append_length, List.length_nil]
  omega

/-- The first three bytes of a body stand where its stuffed form has them. -/
theorem byteAt_stuff_append (body u : List Byte) (k : Nat) (hbody : 3 ≤ body.length) (hk : k < 3) :
    byteAt (stuff body ++ u) k = byteAt body k := by
  match body, hbody with
  | x :: y :: z :: r, _ =>
    obtain ⟨r', hr'⟩ := stuff_three x y z r
    rw [hr']
    match k, hk with
    | 0, _ => rfl
    | 1, _ => rfl
    | 2, _ => rfl

/-- Bytes whose body, unstuffed to the length their length field says, stuffs back to itself are a V2 frame and a rest. -/
theorem eq_v2Wire_append {b logical : List Byte} {used : Nat} (hmarker : slice b 0 4 = v2Marker)
    (htake : unstuffTake (b.drop 4) ((fromLe16 (byteAt b 5) (byteAt b 6)).toNat + 1) = some (logical, used))
    (hfield : 2 ≤ (fromLe16 (byteAt b 5) (byteAt b 6)).toNat) (hlen : 4 + used + 2 ≤ b.length)
    (hstuff : stuff logical = slice b 4 (4 + used)) :
    logical = v2Body (byteAt logical 0) (logical.drop 3) ∧
    b = v2Wire logical (fromLe16 (byteAt b (4 + used)) (byteAt b (4 + used + 1))) ++ b.drop (6 + used) := by
  obtain ⟨-, hlogical, -, -⟩ := unstuffTakeFrom_some _ _ _ _ _ _ _ htake
  have hopen : b = v2Marker ++ (stuff logical ++ b.drop (4 + used)) := by
    have h4 : b.take 4 = v2Marker := by simpa [slice] using hmarker
    have hmid : (b.drop 4).take used = stuff logical := by simpa [slice] using hstuff.symm
    rw [← h4, ← hmid, ← List.drop_drop, List.take_append_drop, List.take_append_drop]
  have hclose : b.drop (4 + used) =
      [byteAt b (4 + used), byteAt b (4 + used + 1)] ++ b.drop (6 + used) := by
    rw [List.drop_eq_getElem_cons (by omega), List.drop_eq_getElem_cons (i := 4 + used + 1) (by omega),
      byteAt_eq_getElem (by omega), byteAt_eq_getElem (by omega), show 4 + used + 1 + 1 = 6 + used by omega]
    rfl
  constructor
  · have h5 : byteAt b 5 = byteAt logical 1 := by
      rw [hopen]
      exact byteAt_stuff_append logical _ 1 (by omega) (by omega)
    have h6 : byteAt b 6 = byteAt logical 2 := by
      rw [hopen]
      exact byteAt_stuff_append logical _ 2 (by omega) (by omega)
    rw [h5, h6] at hlogical
    match logical, (show 3 ≤ logical.length by rw [← h5, ← h6] at hlogical; omega), hlogical with
    | x :: y :: z :: r, _, hlogical =>
      have hr : r.length + 2 = (fromLe16 y z).toNat := by
        simp only [List.length_cons] at hlogical
        exact Nat.succ.inj hlogical
      show x :: [y, z] ++ r = x :: le16 (BitVec.ofNat 16 (r.length + 2)) ++ r
      rw [hr, BitVec.ofNat_toNat, BitVec.setWidth_eq, le16_fromLe16]
  · rw [v2Wire, le16_fromLe16]
    calc b = v2Marker ++ (stuff logical ++ b.drop (4 + used)) := hopen
      _ = _ := by rw [hclose]; simp only [List.append_assoc]

/-! ### The decoder on the bytes of a frame -/

theorem decodeV1Status_append (id err : Byte) {params : List Byte} (hp : params.length ≤ 253) (check : Byte) (n : Nat)
    (t : List Byte) :
    decodeV1Status n (v1StatusBytes id err params check ++ t) = .ok (.v1Status id err params check n, t) := by
  have hmarker : slice (v1StatusBytes id err params check ++ t) 0 2 = v1Marker := rfl
  have hend : 3 + (params.length + 2) = 5 + params.length := by omega
  have hrest : 4 + (params.length + 2) = 6 + params.length := by omega
  rw [decodeV1Status, v1StatusBytes_length_field id err hp, v1StatusBytes_append_length, hmarker, hend, hrest,
    v1StatusBytes_params, v1StatusBytes_check, v1StatusBytes_rest, if_neg (by omega), if_neg (by simp), if_neg (by omega),
    if_neg (by omega)]
  rfl

theorem decodeV1Request_append (id : Byte) (instr : WireInstr) {params : List Byte} (hp : params.length ≤ 253) (n : Nat)
    (t : List Byte) :
    decodeV1Request n (requestFrame .v1 id instr params ++ t) = .ok (Instr.request .v1 instr id params n, t) := by
  have hmarker : slice (requestFrame .v1 id instr params ++ t) 0 2 = v1Marker := rfl
  have hcode : byteAt (requestFrame .v1 id instr params ++ t) 4 = instrCode instr := rfl
  have hend : 3 + (params.length + 2) = 5 + params.length := by omega
  have hrest : 4 + (params.length + 2) = 6 + params.length := by omega
  rw [decodeV1Request, hcode, hmarker, requestFrame_v1_eq, v1StatusBytes_length_field id _ hp, v1StatusBytes_append_length,
    hend, hrest, v1StatusBytes_params, v1StatusBytes_check, v1StatusBytes_body, v1StatusBytes_rest, instrOfCode_instrCode,
    if_neg (by omega), if_neg (by simp), if_neg (by omega), if_neg (by omega)]
  dsimp only
  rw [if_neg (by simp)]
  rfl

theorem decodeV2Status_append (id instr err : Byte) {params : List Byte} (hp : params.length ≤ 65531) (check : Word) (n : Nat)
    (t : List Byte) :
    decodeV2Status n (v2StatusBytes id instr err params check ++ t) = .ok (.v2Status id instr err params check n, t) := by
  obtain ⟨-, hfield⟩ := v2Wire_header id (payload := instr :: err :: params) (by simp; omega) check t
  have hbody := v2Body_length id (instr :: err :: params)
  have hstuff := stuff_length_le (v2Body id (instr :: err :: params))
  have hpayload : (instr :: err :: params).length = params.length + 2 := rfl
  have hhigh : 5 + (stuff (v2Body id (instr :: err :: params))).length =
    4 + (stuff (v2Body id (instr :: err :: params))).length + 1 := by omega
  rw [v2StatusBytes_eq_v2Wire, decodeV2Status, hfield, ← hbody, v2Wire_unstuffTake, v2Wire_append_length, v2Wire_marker,
    if_neg (by omega), if_neg (by simp), if_neg (by omega)]
  dsimp only
  rw [hhigh, v2Wire_body, v2Wire_check, v2Wire_rest, if_neg (by omega), if_neg (by simp)]
  rfl

theorem decodeV2Request_append (id : Byte) (instr : WireInstr) {params : List Byte} (hp : params.length ≤ 65532) (n : Nat)
    (t : List Byte) :
    decodeV2Request n (requestFrame .v2 id instr params ++ t) = .ok (Instr.request .v2 instr id params n, t) := by
  obtain ⟨-, hfield⟩ := v2Wire_header id (payload := instrCode instr :: params) (by simp; omega)
    (crc16OfBody switches (v2Body id (instrCode instr :: params)) (stuff (v2Body id (instrCode instr :: params)))) t
  have hbody := v2Body_length id (instrCode instr :: params)
  have hstuff := stuff_length_le (v2Body id (instrCode instr :: params))
  have hpayload : (instrCode instr :: params).length = params.length + 1 := rfl
  have hhigh : 5 + (stuff (v2Body id (instrCode instr :: params))).length =
    4 + (stuff (v2Body id (instrCode instr :: params))).length + 1 := by omega
  have hcode : byteAt (v2Body id (instrCode instr :: params)) 3 = instrCode instr := rfl
  rw [requestFrame_v2_eq, decodeV2Request, hfield, ← hbody, v2Wire_unstuffTake, v2Wire_append_length, v2Wire_marker,
    if_neg (by omega), if_neg (by simp), if_neg (by omega)]
  dsimp only
  rw [hhigh, v2Wire_body, v2Wire_check, v2Wire_rest, hcode, instrOfCode_instrCode, if_neg (by omega), if_neg (by simp)]
  dsimp only
  rw [if_neg (by simp)]
  rfl

/-! ### What the decoder answered -/

/-- An answer is one that passed the check in front of it. -/
theorem passed_of_ok {α : Type} {p : Prop} [Decidable p] {why : DecodeReject} {x : Except DecodeReject α} {r : α}
    (h : (if p then .error why else x) = .ok r) : ¬ p ∧ x = .ok r := by
  split at h
  · cases h
  · exact ⟨‹_›, h⟩

theorem eq_of_decodeV1Status {n : Nat} {b t : List Byte} {i : Instr} (h : decodeV1Status n b = .ok (i, t)) :
    ∃ id err params check, params.length ≤ 253 ∧ i = .v1Status id err params check n ∧
      b = v1StatusBytes id err params check ++ t := by
  rw [decodeV1Status] at h
  obtain ⟨-, h⟩ := passed_of_ok h
  obtain ⟨hmarker, h⟩ := passed_of_ok h
  obtain ⟨hfield, h⟩ := passed_of_ok h
  obtain ⟨hlen, h⟩ := passed_of_ok h
  obtain ⟨k, hk⟩ := Nat.exists_eq_add_of_le (Nat.le_of_not_lt hfield)
  have hbound := (byteAt b 3).isLt
  obtain ⟨hparams, hb⟩ := eq_v1StatusBytes_append (k := k) (not_not.1 hmarker) (by omega) (by omega)
  rw [hk, show 3 + (2 + k) = 5 + k by omega, show 4 + (2 + k) = 6 + k by omega] at h
  cases h
  exact ⟨_, _, _, _, by omega, rfl, hb⟩

theorem eq_of_decodeV1Request {n : Nat} {b t : List Byte} {i : Instr} (h : decodeV1Request n b = .ok (i, t)) :
    ∃ instr id params, i = Instr.request .v1 instr id params n ∧ b = requestFrame .v1 id instr params ++ t := by
  rw [decodeV1Request] at h
  obtain ⟨-, h⟩ := passed_of_ok h
  obtain ⟨hmarker, h⟩ := passed_of_ok h
  obtain ⟨hfield, h⟩ := passed_of_ok h
  obtain ⟨hlen, h⟩ := passed_of_ok h
  obtain ⟨k, hk⟩ := Nat.exists_eq_add_of_le (Nat.le_of_not_lt hfield)
  obtain ⟨hparams, hb⟩ := eq_v1StatusBytes_append (k := k) (not_not.1 hmarker) (by omega) (by omega)
  rw [hk, show 3 + (2 + k) = 5 + k by omega, show 4 + (2 + k) = 6 + k by omega] at h
  split at h
  · cases h
  next instr hcode =>
    obtain ⟨hcheck, h⟩ := passed_of_ok h
    cases h
    have hrange := v1StatusBytes_body (byteAt b 2) (byteAt b 4) (slice b 5 (5 + k)) (byteAt b (5 + k)) (b.drop (6 + k))
    rw [← hb, hparams] at hrange
    rw [hrange, ← instrCode_of_instrOfCode hcode] at hcheck
    refine ⟨instr, _, _, rfl, ?_⟩
    rw [requestFrame_v1_eq, not_not.1 hcheck, instrCode_of_instrOfCode hcode]
    exact hb

theorem eq_of_decodeV2Status {n : Nat} {b t : List Byte} {i : Instr} (h : decodeV2Status n b = .ok (i, t)) :
    ∃ id instr err params check, params.length ≤ 65531 ∧ i = .v2Status id instr err params check n ∧
      b = v2StatusBytes id instr err params check ++ t := by
  rw [decodeV2Status] at h
  obtain ⟨-, h⟩ := passed_of_ok h
  obtain ⟨hmarker, h⟩ := passed_of_ok h
  obtain ⟨hfield, h⟩ := passed_of_ok h
  split at h
  · cases h
  next logical used htake =>
    obtain ⟨hlen, h⟩ := passed_of_ok h
    obtain ⟨hstuff, h⟩ := passed_of_ok h
    cases h
    have hbound := (fromLe16 (byteAt b 5) (byteAt b 6)).isLt
    obtain ⟨-, hlogical, -, -⟩ := unstuffTakeFrom_some _ _ _ _ _ _ _ htake
    obtain ⟨hbody, hb⟩ := eq_v2Wire_append (not_not.1 hmarker) htake (by omega) (by omega) (not_not.1 hstuff)
    have hpayload : logical.drop 3 = byteAt logical 3 :: byteAt logical 4 :: logical.drop 5 := by
      rw [byteAt_eq_getElem (by omega), byteAt_eq_getElem (by omega), List.drop_eq_getElem_cons,
        List.drop_eq_getElem_cons]
    refine ⟨_, _, _, _, _, ?_, rfl, ?_⟩
    · rw [List.length_drop]
      omega
    · rw [v2StatusBytes_eq_v2Wire, ← hpayload, ← hbody, show 5 + used = 4 + used + 1 by omega]
      exact hb

theorem eq_of_decodeV2Request {n : Nat} {b t : List Byte} {i : Instr} (h : decodeV2Request n b = .ok (i, t)) :
    ∃ instr id params, i = Instr.request .v2 instr id params n ∧ b = requestFrame .v2 id instr params ++ t := by
  rw [decodeV2Request] at h
  obtain ⟨-, h⟩ := passed_of_ok h
  obtain ⟨hmarker, h⟩ := passed_of_ok h
  obtain ⟨hfield, h⟩ := passed_of_ok h
  split at h
  · cases h
  next logical used htake =>
    obtain ⟨hlen, h⟩ := passed_of_ok h
    obtain ⟨hstuff, h⟩ := passed_of_ok h
    split at h
    · cases h
    next instr hcode =>
      obtain ⟨hcheck, h⟩ := passed_of_ok h
      cases h
      obtain ⟨-, hlogical, -, -⟩ := unstuffTakeFrom_some _ _ _ _ _ _ _ htake
      obtain ⟨hbody, hb⟩ := eq_v2Wire_append (not_not.1 hmarker) htake (by omega) (by omega) (not_not.1 hstuff)
      have hpayload : logical.drop 3 = byteAt logical 3 :: logical.drop 4 := by
        rw [byteAt_eq_getElem (by omega), List.drop_eq_getElem_cons]
      refine ⟨instr, _, _, rfl, ?_⟩
      rw [requestFrame_v2_eq, instrCode_of_instrOfCode hcode, ← hpayload, ← hbody, not_not.1 hcheck,
        show 5 + used = 4 + used + 1 by omega]
      exact hb

/-! ### The obligations -/

/-- Settles O55: each of the four decoders reads back the frames of its format. -/
theorem decodeInvertsEncode : Obligations.DecodeInvertsEncode := by
  intro i f t hwf hf
  obtain rfl := eq_frameInstr_of_wireFrame hf
  refine ⟨f.bytes, encode_frameInstr f, ?_⟩
  cases f with
  | request rev instr id params n =>
    have hp := length_le_of_wellFormed_request hwf
    cases rev with
    | v1 => exact decodeV1Request_append id instr hp n t
    | v2 => exact decodeV2Request_append id instr hp n t
  | v1Status id err params check n => exact decodeV1Status_append id err (of_decide_eq_true hwf) check n t
  | v2Status id instr err params check n => exact decodeV2Status_append id instr err (of_decide_eq_true hwf) check n t

/-- Settles O56: what each of the four decoders answers fixes every byte it read. -/
theorem encodeInvertsDecode : Obligations.EncodeInvertsDecode := by
  intro rev kind n b t i h
  match rev, kind, h with
  | .v1, .request, h =>
    obtain ⟨instr, id, params, rfl, hb⟩ := eq_of_decodeV1Request h
    exact ⟨_, encode_frameInstr (.request .v1 instr id params n), hb⟩
  | .v2, .request, h =>
    obtain ⟨instr, id, params, rfl, hb⟩ := eq_of_decodeV2Request h
    exact ⟨_, encode_frameInstr (.request .v2 instr id params n), hb⟩
  | .v1, .status, h =>
    obtain ⟨id, err, params, check, -, rfl, hb⟩ := eq_of_decodeV1Status h
    exact ⟨_, rfl, hb⟩
  | .v2, .status, h =>
    obtain ⟨id, instr, err, params, check, -, rfl, hb⟩ := eq_of_decodeV2Status h
    exact ⟨_, rfl, hb⟩

/-- Settles O54: the code of an instruction leads back to it, so no two share one. -/
theorem instructionCodesAreDistinct : Obligations.InstructionCodesAreDistinct := by
  refine ⟨fun a b h => ?_, rfl, rfl⟩
  have ha := instrOfCode_instrCode a
  rw [h, instrOfCode_instrCode b] at ha
  exact (Option.some.inj ha).symm

/-- Settles O57: the decoder evaluated on the six frames. -/
theorem writtenFramesDecode : Obligations.WrittenFramesDecode := by
  unfold Obligations.WrittenFramesDecode
  refine ⟨?_, ?_, ?_, ?_, ?_, ?_⟩ <;> decide +kernel

end Sys2Proof.Proofs
end

section
/-! PROOFS about the receive path (R129, R142, R143, R152): what one receive, the status receive and the two of a transaction
write on the line and take from RXQ. -/

namespace Sys2Proof.Proofs

open Sys2Proof.Machine Sys2Proof.Laws

/-- What moved, from RXQ `q` and environment `env`, is at most `k` receives of at most `m` bytes together; without a channel
fault no byte is lost or reordered (R152). -/
structure Receives {α : Type} (q : List Byte) (env : Environment) (k m : Nat) (w : Moved α) : Prop where
  onlyReceives : ∀ e ∈ w.events, e.isReceive
  count : w.events.length ≤ k
  bytes : (w.events.flatMap Event.received).length ≤ m
  inOrder : Event.rxFail ∉ w.events → ∃ arrived, q ++ arrived = w.events.flatMap Event.received ++ w.rxq
  bind : w.env.bind = env.bind
  between : w.env.between = env.between

/-- No receive at all. -/
theorem receives_none {α : Type} (q : List Byte) (env : Environment) (k m : Nat) (r : α) :
    Receives q env k m ⟨[], q, env, r⟩ where
  onlyReceives := by simp
  count := Nat.zero_le _
  bytes := Nat.zero_le _
  inOrder := fun _ => ⟨[], by simp⟩
  bind := rfl
  between := rfl

/-- What the receives are does not depend on what is made of them. -/
theorem Receives.mapResult {α β : Type} {q : List Byte} {env : Environment} {k m : Nat} {w : Moved α}
    (h : Receives q env k m w) (r : β) : Receives q env k m ⟨w.events, w.rxq, w.env, r⟩ :=
  ⟨h.onlyReceives, h.count, h.bytes, h.inOrder, h.bind, h.between⟩

theorem Receives.mono {α : Type} {q : List Byte} {env : Environment} {k m k' m' : Nat} {w : Moved α}
    (h : Receives q env k m w) (hk : k ≤ k') (hm : m ≤ m') : Receives q env k' m' w :=
  ⟨h.onlyReceives, h.count.trans hk, h.bytes.trans hm, h.inOrder, h.bind, h.between⟩

/-- Receives one after the other. -/
theorem Receives.append {α β : Type} {q : List Byte} {env : Environment} {k m k' m' : Nat} {w : Moved α} {v : Moved β}
    (hw : Receives q env k m w) (hv : Receives w.rxq w.env k' m' v) :
    Receives q env (k + k') (m + m') ⟨w.events ++ v.events, v.rxq, v.env, v.result⟩ where
  onlyReceives := fun e he => (List.mem_append.1 he).elim (hw.onlyReceives e) (hv.onlyReceives e)
  count := by
    rw [List.length_append]
    exact Nat.add_le_add hw.count hv.count
  bytes := by
    rw [List.flatMap_append, List.length_append]
    exact Nat.add_le_add hw.bytes hv.bytes
  inOrder := fun hf => by
    obtain ⟨a, ha⟩ := hw.inOrder fun h => hf (List.mem_append_left _ h)
    obtain ⟨b, hb⟩ := hv.inOrder fun h => hf (List.mem_append_right _ h)
    refine ⟨a ++ b, ?_⟩
    rw [← List.append_assoc, ha, List.flatMap_append, List.append_assoc, hb, List.append_assoc]
  bind := hv.bind.trans hw.bind
  between := hv.between.trans hw.between

@[simp] theorem received_takenEvent (discard : Bool) (b : List Byte) : (takenEvent discard b).received = b := by
  cases discard <;> rfl

@[simp] theorem isReceive_takenEvent (discard : Bool) (b : List Byte) : (takenEvent discard b).isReceive = true := by
  cases discard <;> rfl

/-- READ_EXACT is one receive of at most the bytes it was asked for; of no bytes it is none. -/
theorem receives_receive (discard : Bool) (n : Nat) (q : List Byte) (env : Environment) :
    Receives q env 1 n (receive discard n q env) := by
  by_cases hn : n = 0
  · rw [hn, receive_zero]
    exact receives_none ..
  cases hf : env.nextRx.fault with
  | some after =>
    rw [receive_fault discard hn hf]
    exact ⟨by simp [Event.isReceive], Nat.le_refl _, by simp [Event.received], fun h => absurd (List.mem_singleton.2 rfl) h,
      rfl, rfl⟩
  | none =>
    by_cases hq : n ≤ (q ++ env.nextRx.arrivals).length
    · rw [receive_taken discard hn hf hq]
      exact ⟨by simp, Nat.le_refl _, by simp, fun _ => ⟨env.nextRx.arrivals, by simp⟩, rfl, rfl⟩
    · have hq' := Nat.lt_of_not_le hq
      rw [receive_timeout discard hf hq']
      exact ⟨by simp [Event.isReceive], Nat.le_refl _, by simpa [Event.received] using hq'.le,
        fun _ => ⟨env.nextRx.arrivals, by simp [Event.received]⟩, rfl, rfl⟩

theorem receives_reply (c : Cfg) (n : Nat) (q : List Byte) (env : Environment) :
    Receives q env 1 (statusWireLen c.rev n) (reply c n q env) := by
  unfold reply
  split
  · exact receives_none ..
  · exact (receives_receive ..).mapResult _

theorem receives_discardThenReply (c : Cfg) (n : Nat) (q : List Byte) (env : Environment) :
    Receives q env 2 (c.echoLen + statusWireLen c.rev n) (discardThenReply c n q env) := by
  have hecho := receives_receive true c.echoLen q env
  unfold discardThenReply
  split
  · dsimp only
    split
    · exact hecho.append (receives_reply ..)
    · exact (hecho.mapResult _).mono (by omega) (by omega)
  · exact (receives_reply ..).mono (by omega) (by omega)

end Sys2Proof.Proofs
end

section
/-! PROOFS of the statements about the machine's invariant (R22, R28 to R30, R37, R39, R54): reset meets it and every step keeps
it, an executed instruction by the six ways it can go on, the sequencer by its three states. -/

namespace Sys2Proof.Proofs

open Sys2Proof.Machine Sys2Proof.Laws

/-! ### The line -/

theorem lineAfter_append (l : Line) (a b : List Event) : lineAfter l (a ++ b) = (lineAfter l a).bind (lineAfter · b) :=
  List.foldlM_append

/-- The bytes of a frame keep the line sending. -/
theorem lineAfter_sending_tx (b : List Byte) : lineAfter .sending (b.map .tx) = some .sending := by
  induction b with
  | nil => rfl
  | cons x b ih => exact ih

theorem lineAfter_sentEvents (b : List Byte) : lineAfter .listening (sentEvents b) = some .listening := by
  rw [sentEvents, List.append_assoc, lineAfter_append, show lineAfter .listening [.dir .tx] = some .sending from rfl,
    Option.bind_some, lineAfter_append, lineAfter_sending_tx]
  rfl

theorem lineAfter_failedEvents (b : List Byte) (k : Nat) : lineAfter .listening (failedEvents b k) = some .listening := by
  rw [failedEvents, List.append_assoc, lineAfter_append, show lineAfter .listening [.dir .tx] = some .sending from rfl,
    Option.bind_some, lineAfter_append, lineAfter_sending_tx]
  rfl

theorem after_listening_of_isReceive {e : Event} (h : e.isReceive) : Line.after .listening e = some .listening := by
  cases e <;> cases h <;> rfl

/-- Receives leave the line listening. -/
theorem lineAfter_receives {e : List Event} (h : ∀ x ∈ e, x.isReceive) : lineAfter .listening e = some .listening := by
  induction e with
  | nil => rfl
  | cons x e ih =>
    show (Line.after .listening x).bind (lineAfter · e) = _
    rw [after_listening_of_isReceive (h x List.mem_cons_self), Option.bind_some]
    exact ih fun y hy => h y (List.mem_cons_of_mem _ hy)

/-- A trace that ends listening still does behind events that start and end there. -/
theorem lineAfter_extended {a b : List Event} (ha : lineAfter .listening a = some .listening)
    (hb : lineAfter .listening b = some .listening) : lineAfter .listening (a ++ b) = some .listening := by
  rw [lineAfter_append, ha, Option.bind_some, hb]

theorem lineAfter_transactionMoves (s : State) (n : Nat) (frame : List Byte) :
    lineAfter .listening (transactionMoves s n frame).events = some .listening := by
  unfold transactionMoves
  dsimp only
  split
  · exact lineAfter_failedEvents ..
  · exact lineAfter_extended (lineAfter_sentEvents frame) (lineAfter_receives (receives_discardThenReply ..).onlyReceives)

/-! ### The updates of the state that keep the invariant -/

theorem inv_constructed (s : State) {cfg : Cfg} (legal : cfg.mult ≠ 3) : (s.constructed cfg).Inv where
  dirRx := rfl
  line := rfl
  mult := legal
  dead := fun _ => ⟨rfl, rfl, rfl, rfl⟩
  out := nofun
  waiting := nofun
  packet := Nat.zero_le _
  bound := fun hf => absurd rfl hf

section

variable {s : State} (h : s.Inv)

include h

/-- What is neither latch, buffer, OUT, configuration nor state of the sequencer may change, the line by closed transmissions. -/
theorem inv_moved {dir : Direction} {trace : List Event} (hd : dir = .rx) (ht : lineAfter .listening trace = some .listening)
    (rxq : List Byte) (pending : List Command) (env : Environment) (ret : Returned) :
    State.Inv { s with dir := dir, trace := trace, rxq := rxq, pending := pending, env := env, ret := ret } :=
  ⟨hd, ht, h.mult, h.dead, h.out, h.waiting, h.packet, h.bound⟩

theorem inv_give (v : Returned) : (s.give v).Inv := inv_moved h h.dirRx h.line _ _ _ _

theorem inv_arrive_pending (rest : List Command) : State.Inv { s.arrive with pending := rest } :=
  inv_moved h h.dirRx h.line _ _ _ _

theorem inv_writeFrame (b : List Byte) : (writeFrame b s).1.Inv := by
  cases hf : s.env.nextTx.fault with
  | none =>
    rw [writeFrame_sent hf]
    exact inv_moved h rfl (lineAfter_extended h.line (lineAfter_sentEvents b)) _ _ _ _
  | some f =>
    rw [writeFrame_failed hf]
    exact inv_moved h rfl (lineAfter_extended h.line (lineAfter_failedEvents b _)) _ _ _ _

theorem inv_readExact (discard : Bool) (n : Nat) : (readExact discard n s).1.Inv := by
  rw [readExact_eq]
  exact inv_moved h h.dirRx (lineAfter_extended h.line (lineAfter_receives (receives_receive ..).onlyReceives)) _ _ _ _

/-- A transaction ends in Idle with everything dead. -/
theorem inv_returned {events : List Event} (he : lineAfter .listening events = some .listening) (rxq : List Byte)
    (env : Environment) (o : TxnOutcome) : (s.returned events rxq env o).Inv where
  dirRx := rfl
  line := lineAfter_extended h.line he
  mult := h.mult
  dead := fun _ => ⟨rfl, rfl, rfl, rfl⟩
  out := nofun
  waiting := nofun
  packet := Nat.zero_le _
  bound := fun hf => absurd rfl hf

theorem inv_unbound (hi : s.fsm = .idle) (ret : Returned) : State.Inv { s with bound := false, ret := ret } :=
  ⟨h.dirRx, h.line, h.mult, h.dead, h.out, h.waiting, h.packet, fun hf => absurd hi hf⟩

/-- Into Done an outcome is written. -/
theorem inv_finish (hf : s.fsm ≠ .idle) (o : TxnOutcome) : (s.finish o).Inv :=
  ⟨h.dirRx, h.line, h.mult, nofun, fun _ => rfl, nofun, h.packet, fun _ => h.bound hf⟩

theorem inv_raise (hf : s.fsm ≠ .idle) (k : ErrorKind) : (s.raise k).Inv := inv_finish h hf (.err k)

/-- Into AwaitReply the latches stay as they were. -/
theorem inv_toAwaitReply (hf : s.fsm = .awaitFirst) (b : List Byte) : State.Inv { s with rxbuf := b, fsm := .awaitReply } :=
  ⟨h.dirRx, h.line, h.mult, nofun, nofun, fun _ => h.waiting (.inl hf), h.packet, fun _ => h.bound (by simp [hf])⟩

theorem inv_withRxbuf (hf : s.fsm ≠ .idle) (b : List Byte) : State.Inv { s with rxbuf := b } :=
  ⟨h.dirRx, h.line, h.mult, fun hi => absurd hi hf, h.out, h.waiting, h.packet, h.bound⟩

theorem inv_returnToCaller : s.returnToCaller.Inv where
  dirRx := h.dirRx
  line := h.line
  mult := h.mult
  dead := fun _ => ⟨rfl, rfl, rfl, rfl⟩
  out := nofun
  waiting := nofun
  packet := Nat.zero_le _
  bound := fun hf => absurd rfl hf

/-! ### The sequencer -/

theorem inv_awaitFirst (hf : s.fsm = .awaitFirst) : s.awaitFirst.Inv := by
  unfold State.awaitFirst
  split
  · have hread := inv_readExact h true s.cfg.echoLen
    have hfsm : (readExact true s.cfg.echoLen s).1.fsm = .awaitFirst := by rw [readExact_eq]; exact hf
    split
    all_goals
      rename_i he
      rw [he] at hread hfsm
      dsimp only at hread hfsm
    · exact inv_toAwaitReply hread hfsm _
    · exact inv_raise hread (by simp [hfsm]) _
  · exact inv_toAwaitReply h hf s.rxbuf

theorem inv_awaitReply (hf : s.fsm = .awaitReply) : s.awaitReply.Inv := by
  have hrunning : s.fsm ≠ .idle := by simp [hf]
  unfold State.awaitReply
  split
  · have hread := inv_readExact h false (statusWireLen s.cfg.rev s.req.n)
    have hfsm : (readExact false (statusWireLen s.cfg.rev s.req.n) s).1.fsm ≠ .idle := by rw [readExact_eq]; exact hrunning
    split
    all_goals
      rename_i he
      rw [he] at hread hfsm
      dsimp only at hread hfsm
    next s' b =>
      rw [deliver_eq_finish]
      exact inv_finish (s := { s' with rxbuf := b }) (inv_withRxbuf hread hfsm b) hfsm _
    next => exact inv_raise hread hfsm _
  · exact inv_finish h hrunning _

theorem inv_advance : s.advance.Inv := by
  cases hf : s.fsm with
  | idle => rw [advance_idle hf]; exact h
  | awaitFirst => rw [advance_awaitFirst hf]; exact inv_awaitFirst h hf
  | awaitReply => rw [advance_awaitReply hf]; exact inv_awaitReply h hf
  | done => rw [advance_done hf]; exact inv_returnToCaller h

/-! ### An instruction -/

theorem inv_exec {i : Instr} {t : State} (hx : exec i s = .next t) : t.Inv := by
  cases did_of_exec hx with
  | constructed _ legal => exact inv_constructed s legal
  | unbound ready => exact inv_unbound h ready.2 _
  | gave _ _ v => exact inv_give h v
  | wrote _ _ v => exact inv_give (inv_writeFrame h _) v
  | received _ v => exact inv_give (inv_readExact h _ _) v
  | transacted =>
    rw [transaction_eq]
    exact inv_returned h (lineAfter_transactionMoves ..) _ _ _

end

/-- What the pending command makes of a step in Idle: nothing, a refusal, or the execution of an instruction. -/
theorem issue_eq_next {s t : State} (h : s.issue = .next t) :
    t = s ∨ ∃ i rest, exec i { s with pending := rest } = .next t := by
  unfold State.issue at h
  split at h
  · cases h
    exact .inl rfl
  · split at h
    · cases (whenAdmitted_eq_next h).2
    · exact .inr ⟨_, _, h⟩

/-! ### The obligations -/

/-- Settles O59: in Idle the arrivals and the issued instruction keep the invariant, else the sequencer's step does. -/
theorem everyStepKeepsTheInvariant : Obligations.EveryStepKeepsTheInvariant := by
  intro s t h hstep
  by_cases hf : s.fsm = .idle
  · rw [step_of_idle hf] at hstep
    rcases issue_eq_next hstep with rfl | ⟨i, rest, hx⟩
    · exact inv_arrive_pending h s.pending
    · exact inv_exec (inv_arrive_pending h rest) hx
  · rw [step_of_running hf] at hstep
    cases hstep
    exact inv_advance h

/-- Settles O60: nothing is bound, latched or sent at reset. -/
theorem resetMeetsTheInvariant : Obligations.ResetMeetsTheInvariant where
  dirRx := rfl
  line := rfl
  mult := by decide
  dead := fun _ => ⟨rfl, rfl, rfl, rfl⟩
  out := nofun
  waiting := nofun
  packet := Nat.le_refl 0
  bound := fun hf => absurd rfl hf

end Sys2Proof.Proofs
end

section
/-! PROOFS of the statements about the Integrity Check (R110 to R120). One shift of the CRC register is linear over exclusive or,
and injective because the polynomial is odd; both carry over to a byte and to a sequence. -/

namespace Sys2Proof.Proofs

open Sys2Proof.Machine Sys2Proof.Laws

/-! ### CHK8 -/

/-- The 8-bit accumulator holds the sum of the bytes modulo 256. -/
theorem foldl_add_eq (b : List Byte) : ∀ c : Byte, b.foldl (· + ·) c = c + BitVec.ofNat 8 (b.map BitVec.toNat).sum := by
  induction b with
  | nil => intro c; simp
  | cons x b ih =>
    intro c
    rw [List.foldl_cons, ih, List.map_cons, List.sum_cons, BitVec.ofNat_add, BitVec.ofNat_toNat, BitVec.setWidth_eq,
      BitVec.add_assoc]

theorem chk8_eq (b : List Byte) : chk8 b = BitVec.ofNat 8 (255 - (b.map BitVec.toNat).sum % 256) := by
  rw [chk8, foldl_add_eq]
  apply BitVec.eq_of_toNat_eq
  simp
  omega

theorem chk8_replace_ne (before after : List Byte) {x y : Byte} (h : x ≠ y) :
    chk8 (before ++ x :: after) ≠ chk8 (before ++ y :: after) := by
  simp only [chk8, List.foldl_append, List.foldl_cons, foldl_add_eq after]
  intro he
  exact h (by simpa using he)

/-! ### One shift of the CRC register -/

theorem crcShift_xor (p a b : Word) : crcShift p (a ^^^ b) = crcShift p a ^^^ crcShift p b := by
  unfold crcShift
  rw [BitVec.msb_xor, BitVec.shiftLeft_xor_distrib]
  cases a.msb <;> cases b.msb <;> simp
  · ac_rfl
  · ac_rfl
  · rw [BitVec.xor_assoc, ← BitVec.xor_assoc p, BitVec.xor_comm p, BitVec.xor_assoc (b <<< 1), BitVec.xor_self,
      BitVec.xor_zero]

/-- A register whose shift is zero is zero: an odd polynomial would show in the lowest bit. -/
theorem eq_zero_of_crcShift {p c : Word} (hp : p[0] = true) (h : crcShift p c = 0) : c = 0 := by
  unfold crcShift at h
  split at h
  next =>
    have hbit : (c <<< 1 ^^^ p)[0] = false := by rw [h]; rfl
    simp [hp] at hbit
  next hmsb =>
    apply BitVec.eq_of_getElem_eq
    intro i hi
    by_cases htop : i = 15
    · subst htop
      simpa [BitVec.msb_eq_getLsbD_last] using hmsb
    · have hbit : (c <<< 1)[i + 1] = false := by simp [h]
      simpa using hbit

theorem crcShift_injective {p : Word} (hp : p[0] = true) : Function.Injective (crcShift p) := by
  intro a b h
  refine BitVec.xor_eq_zero_iff.1 (eq_zero_of_crcShift hp ?_)
  rw [crcShift_xor, h, BitVec.xor_self]
  rfl

/-! ### Eight shifts, one byte -/

theorem repeat_crcShift_xor (p : Word) (k : Nat) (a b : Word) :
    Nat.repeat (crcShift p) k (a ^^^ b) = Nat.repeat (crcShift p) k a ^^^ Nat.repeat (crcShift p) k b := by
  induction k with
  | zero => rfl
  | succ k ih => simp only [Nat.repeat, ih, crcShift_xor]

theorem repeat_crcShift_injective {p : Word} (hp : p[0] = true) (k : Nat) :
    Function.Injective (Nat.repeat (crcShift p) k) := by
  induction k with
  | zero => exact fun _ _ h => h
  | succ k ih => exact fun _ _ h => ih (crcShift_injective hp h)

/-- Nothing leaves the register while a byte moves from its low to its high half. -/
theorem repeat_crcShift_low (p : Word) (v : Byte) {k : Nat} (hk : k ≤ 8) :
    Nat.repeat (crcShift p) k (v.setWidth 16) = v.setWidth 16 <<< k := by
  induction k with
  | zero => simp [Nat.repeat]
  | succ k ih =>
    have hmsb : (v.setWidth 16 <<< k).msb = false := by
      rw [BitVec.msb_eq_getLsbD_last, BitVec.getLsbD_shiftLeft, BitVec.getLsbD_setWidth,
        BitVec.getLsbD_of_ge v _ (by omega), Bool.and_false, Bool.and_false]
    rw [Nat.repeat, ih (by omega), crcShift, if_neg (by simp [hmsb]), BitVec.shiftLeft_add]

theorem crcByte_xor (p a b : Word) (x y : Byte) : crcByte p (a ^^^ b) (x ^^^ y) = crcByte p a x ^^^ crcByte p b y := by
  have hentry : a ^^^ b ^^^ ((x ^^^ y).setWidth 16 <<< 8) =
      (a ^^^ (x.setWidth 16 <<< 8)) ^^^ (b ^^^ (y.setWidth 16 <<< 8)) := by
    rw [BitVec.setWidth_xor, BitVec.shiftLeft_xor_distrib]
    ac_rfl
  rw [crcByte, hentry, repeat_crcShift_xor]
  rfl

/-- Register and byte enter as one word. -/
theorem entry_eq_of_crcByte {p a b : Word} {x y : Byte} (hp : p[0] = true) (h : crcByte p a x = crcByte p b y) :
    a ^^^ (x.setWidth 16 <<< 8) = b ^^^ (y.setWidth 16 <<< 8) := repeat_crcShift_injective hp 8 h

theorem crcByte_register_injective {p : Word} (hp : p[0] = true) (x : Byte) :
    Function.Injective (crcByte p · x) :=
  fun _ _ h => (BitVec.xor_left_inj _).1 (entry_eq_of_crcByte hp h)

theorem crcByte_byte_injective {p : Word} (hp : p[0] = true) (c : Word) : Function.Injective (crcByte p c) := by
  intro x y h
  have hshift := (BitVec.xor_right_inj _).1 (entry_eq_of_crcByte hp h)
  apply BitVec.eq_of_getLsbD_eq
  intro i hi
  have hbit := congrArg (BitVec.getLsbD · (i + 8)) hshift
  simpa [BitVec.getLsbD_shiftLeft, BitVec.getLsbD_setWidth, show i + 8 < 16 by omega, show i < 16 by omega] using hbit

/-! ### CRC16 of a sequence -/

theorem crc16_eq_foldl (b : List Byte) : crc16 b = b.foldl (crcByte 0x8005) 0 := by
  simp [crc16, crc16With, crcParams]

theorem foldl_crcByte_xor (p : Word) : ∀ (a b : List Byte) (c d : Word), a.length = b.length →
    (List.zipWith (· ^^^ ·) a b).foldl (crcByte p) (c ^^^ d) = a.foldl (crcByte p) c ^^^ b.foldl (crcByte p) d
  | [], [], _, _, _ => rfl
  | x :: a, y :: b, c, d, h => by
    rw [List.zipWith_cons_cons, List.foldl_cons, crcByte_xor]
    exact foldl_crcByte_xor p a b _ _ (Nat.succ.inj h)

theorem foldl_crcByte_injective {p : Word} (hp : p[0] = true) (b : List Byte) :
    Function.Injective fun c => b.foldl (crcByte p) c := by
  induction b with
  | nil => exact fun _ _ h => h
  | cons x b ih => exact fun _ _ h => crcByte_register_injective hp x (ih h)

theorem crc16_replace_ne (before after : List Byte) {x y : Byte} (h : x ≠ y) :
    crc16 (before ++ x :: after) ≠ crc16 (before ++ y :: after) := by
  simp only [crc16_eq_foldl, List.foldl_append, List.foldl_cons]
  exact fun he => h (crcByte_byte_injective (by decide) _ (foldl_crcByte_injective (by decide) after he))

/-! ### The table form -/

theorem crcTable_getD (i : Byte) : crcTable.getD i.toNat 0 = crcByte 0x8005 0 i := by
  have hi : i.toNat < 256 := i.isLt
  simp [crcTable, hi, crc16_eq_foldl]

/-- The byte at the high end selects the table entry, the low half moves up (R113). -/
theorem crcByte_eq_table (c : Word) (x : Byte) :
    crcByte 0x8005 c x = (c <<< 8) ^^^ crcTable.getD (hi8 c ^^^ x).toNat 0 := by
  have hsplit : c ^^^ (x.setWidth 16 <<< 8) = (lo8 c).setWidth 16 ^^^ (0 ^^^ ((hi8 c ^^^ x).setWidth 16 <<< 8)) := by
    ext i hi
    by_cases h8 : i < 8
    · simp [lo8, hi8, h8, BitVec.getLsbD_eq_getElem hi]
    · simp [lo8, hi8, h8, BitVec.getLsbD_eq_getElem hi, show i - 8 < 8 by omega, show 8 + (i - 8) = i by omega]
  have hlow : (lo8 c).setWidth 16 <<< 8 = c <<< 8 := by
    ext i hi
    by_cases h8 : i < 8
    · simp [h8]
    · simp [lo8, h8, show i - 8 < 8 by omega, BitVec.getLsbD_eq_getElem (show i - 8 < 16 by omega)]
  rw [crcTable_getD, crcByte, hsplit, repeat_crcShift_xor, repeat_crcShift_low _ _ (Nat.le_refl 8), hlow]
  rfl

theorem crc16_eq_table (b : List Byte) : crc16 b = crc16Table b := by
  rw [crc16_eq_foldl, crc16Table]
  exact congrArg (fun f => b.foldl f 0) (funext fun c => funext fun x => crcByte_eq_table c x)

theorem crc16OfBody_switches (body wbody : List Byte) : crc16OfBody switches body wbody = crc16 wbody := rfl

/-! ### The obligations -/

/-- Settles O1: the 8-bit accumulator wraps by itself. -/
theorem chk8IsComplementOfTruncatedSum : Obligations.Chk8IsComplementOfTruncatedSum := by
  intro s b hr
  rw [exec_chk8, chk8_eq]
  exact ⟨fun hv => answerOn_of_ready hr hv _, fun hv => answerOn_of_other hr (by simp [hv]) _⟩

/-- Settles O2: byte by byte, the table gives what eight shifts give. -/
theorem crc16OperationMatchesTableForm : Obligations.Crc16OperationMatchesTableForm := by
  refine ⟨by simp [crcTable], fun s b hr => ?_⟩
  rw [exec_crc16, crc16_eq_table]
  exact ⟨fun hv => answerOn_of_ready hr hv _, fun hv => answerOn_of_other hr (by simp [hv]) _⟩

/-- Settles O3: each byte's step is linear, and the register starts at zero. -/
theorem crc16IsLinearOverXor : Obligations.Crc16IsLinearOverXor := by
  intro a b h
  simp only [crc16_eq_foldl]
  exact foldl_crcByte_xor 0x8005 a b 0 0 h

/-- Settles O4: both checks are injective in each byte. -/
theorem oneChangedByteChangesBothChecks : Obligations.OneChangedByteChangesBothChecks :=
  fun before after _ _ h => ⟨chk8_replace_ne before after h, crc16_replace_ne before after h⟩

/-- Settles O5: VERIFY is an operation of the revision of its operands. -/
theorem verifyRecomputesAndCompares : Obligations.VerifyRecomputesAndCompares := by
  intro s range expected1 body wbody expected2 hr
  simp only [exec_verify]
  exact ⟨fun hv => ⟨answerOn_of_ready hr hv _, answerOn_of_other hr (by simp [hv, operandsRev]) _⟩,
    fun hv => ⟨answerOn_of_ready hr hv _, answerOn_of_other hr (by simp [hv, operandsRev]) _⟩⟩

/-- Settles O6: COMPUTE is an operation of the revision of its range. -/
theorem computeFollowsTheRevision : Obligations.ComputeFollowsTheRevision := by
  intro s range body wbody hr
  simp only [exec_compute]
  exact ⟨fun hv => ⟨answerOn_of_ready hr hv _, answerOn_of_other hr (by simp [hv, rangeRev]) _⟩,
    fun hv => ⟨answerOn_of_ready hr hv _, answerOn_of_other hr (by simp [hv, rangeRev]) _⟩⟩

/-- Settles O7: with the settings of D3 and D4 the range is the wire body. -/
theorem crcCoversWireBodyAfterMarker : Obligations.CrcCoversWireBodyAfterMarker := by
  intro s body wbody hr
  rw [exec_crc16OfBody, crc16OfBody_switches]
  exact ⟨fun hv => answerOn_of_ready hr hv _, fun hv => answerOn_of_other hr (by simp [hv]) _⟩

/-- Settles O8: each of the four operations is an answer of one revision. -/
theorem integrityOperationsArePure : Obligations.IntegrityOperationsArePure := by
  have hanswer : ∀ (i : Instr) (rev : Rev) (v : Returned), (∀ s, exec i s = s.answerOn rev v) →
      ∃ (rev : Rev) (v : Returned), ∀ s : State, s.Ready →
        (s.cfg.rev = rev → exec i s = .next { s with ret := v }) ∧
        (s.cfg.rev ≠ rev → exec i s = .refused .wrongRevision) := by
    intro i rev v hi
    refine ⟨rev, v, fun s hr => ?_⟩
    rw [hi]
    exact ⟨fun hv => answerOn_of_ready hr hv v, fun hv => answerOn_of_other hr hv v⟩
  rintro i (⟨b, rfl⟩ | ⟨b, rfl⟩ | ⟨r, rfl⟩ | ⟨v, rfl⟩)
  · exact hanswer _ _ _ (exec_chk8 b)
  · exact hanswer _ _ _ (exec_crc16 b)
  · exact hanswer _ _ _ (exec_compute r)
  · exact hanswer _ _ _ (exec_verify v)

end Sys2Proof.Proofs
end

section
/-! PROOFS of the statements about the Frame Codec: UNSTUFF_TAKE (R91), the marker in stuffed bodies (R92), what the encoders
return and refuse (R94 to R97), and DECODE_STATUS (R98 to R100, R206). -/

namespace Sys2Proof.Proofs

open Sys2Proof.Machine Sys2Proof.Laws

/-! ### The marker in a stuffed body -/

/-- The scan behind wire bytes `q2`, `q1` never completes the marker, as long as `FF`s among these are logical bytes too: then
FF FF FD on the wire is the pattern, and FD, not 00, is inserted behind it. -/
theorem not_marker_infix_stuffFrom (b : List Byte) : ∀ q2 q1 p2 p1 : Byte, (q1 = 0xFF → p1 = 0xFF) →
    (q2 = 0xFF → q1 = 0xFF → p2 = 0xFF) → ¬ v2Marker <:+: q2 :: q1 :: stuffFrom p2 p1 b := by
  have hshort : ∀ q : Byte, ¬ v2Marker <:+: [q] := fun q h => absurd h.length_le (by simp [v2Marker])
  induction b with
  | nil =>
    intro q2 q1 p2 p1 _ _ h
    exact absurd h.length_le (by simp [v2Marker, stuffFrom])
  | cons x b ih =>
    intro q2 q1 p2 p1 h1 h2
    cases hp : isPattern p2 p1 x with
    | true =>
      obtain ⟨rfl, rfl, rfl⟩ : p2 = 0xFF ∧ p1 = 0xFF ∧ x = 0xFD := by simpa [isPattern, and_assoc] using hp
      rw [stuffFrom, if_pos hp, List.infix_cons_iff, List.infix_cons_iff]
      rintro (hpre | hpre | hrest)
      · simp [v2Marker] at hpre
      · simp [v2Marker] at hpre
      · exact ih 0xFD 0xFD 0xFF 0xFD (by decide) (by decide) hrest
    | false =>
      rw [stuffFrom, if_neg (by simp [hp]), List.infix_cons_iff]
      rintro (hpre | hrest)
      · obtain ⟨rfl, rfl, rfl, -⟩ : q2 = 0xFF ∧ q1 = 0xFF ∧ x = 0xFD ∧ _ := by
          simpa [v2Marker, eq_comm] using hpre
        rw [h1 rfl, h2 rfl rfl] at hp
        exact absurd hp (by decide)
      · exact ih q1 x p1 x (fun h => h) (fun hq _ => h1 hq) hrest

/-! ### ENCODE_REQUEST and ENCODE_STATUS -/

theorem encodeRequest_overflow {rev : Rev} {params : List Byte} (hp : maxRequestParams rev < params.length)
    (maxPacket : Nat) (id : Byte) (instr : WireInstr) :
    encodeRequest rev maxPacket id instr params = .error .lengthFieldOverflow := by
  rw [encodeRequest, if_pos hp]

theorem encodeRequest_tooLong {rev : Rev} {maxPacket : Nat} {id : Byte} {instr : WireInstr} {params : List Byte}
    (hp : params.length ≤ maxRequestParams rev) (hm : maxPacket < (requestFrame rev id instr params).length) :
    encodeRequest rev maxPacket id instr params = .error .packetTooLong := by
  rw [encodeRequest, if_neg (Nat.not_lt.2 hp), if_pos hm]

theorem encodeStatus_overflow {rev : Rev} {params : List Byte} (hp : maxStatusParams rev < params.length) (id err : Byte) :
    encodeStatus rev id err params = .error .lengthFieldOverflow := by
  rw [encodeStatus, if_pos hp]

theorem encodeStatus_of_fits {rev : Rev} {params : List Byte} (hp : params.length ≤ maxStatusParams rev) (id err : Byte) :
    encodeStatus rev id err params = .ok (statusFrame rev id err params) := by
  rw [encodeStatus, if_neg (Nat.not_lt.2 hp)]

/-- An encoder that refuses, on a connection of its revision. -/
theorem onRevision_giveBytes_error {s : State} {rev : Rev} {f : State → Except Refusal (List Byte)} {r : Refusal}
    (hr : s.Ready) (hv : s.cfg.rev = rev) (hf : f s = .error r) :
    (s.onRevision rev fun s => s.giveBytes (f s)) = .refused r := by
  rw [onRevision_of_ready hr hv, hf]
  rfl

theorem onRevision_giveBytes_ok {s : State} {rev : Rev} {f : State → Except Refusal (List Byte)} {b : List Byte}
    (hr : s.Ready) (hv : s.cfg.rev = rev) (hf : f s = .ok b) :
    (s.onRevision rev fun s => s.giveBytes (f s)) = .next { s with ret := .bytes b } := by
  rw [onRevision_of_ready hr hv, hf]
  rfl

/-- The length field of a V2 body holds its two bytes whole (R67, R77). -/
theorem v2Body_eq (id : Byte) {payload : List Byte} (hp : payload.length ≤ 65533) :
    v2Body id payload =
      [id, BitVec.ofNat 8 (payload.length + 2), BitVec.ofNat 8 ((payload.length + 2) / 256)] ++ payload := by
  rw [v2Body, le16_ofNat _ (by omega)]

/-! ### DECODE_STATUS, revision V1 -/

/-- A frame is one that passed the check in front of it. -/
theorem passed_of_frame {p : Prop} [Decidable p] {k : ErrorKind} {d : Decoded} {f : StatusFrame}
    (h : (if p then .error k else d) = .frame f) : ¬ p ∧ d = .frame f := by
  split at h
  · cases h
  · exact ⟨‹_›, h⟩

/-- DECODE_STATUS of the bytes of a V1 status frame, with whatever checksum they carry and whatever follows. -/
theorem decodeStatusV1_append (id err : Byte) {params : List Byte} (hp : params.length ≤ 253) (check : Byte) (n : Nat)
    (t : List Byte) :
    decodeStatusV1 n (v1StatusBytes id err params check ++ t) =
      if n ≠ params.length then .error .lengthMismatch
      else if check ≠ chk8 (statusBody .v1 id err params) then .error .integrityMismatch
      else .frame { id := id, instr := none, err := err, params := params, check := .v1 check } := by
  have hmarker : slice (v1StatusBytes id err params check ++ t) 0 2 = v1Marker := rfl
  rw [decodeStatusV1, v1StatusBytes_length_field id err hp, v1StatusBytes_append_length, hmarker, if_neg (by omega),
    if_neg (by simp), if_neg (by omega)]
  by_cases hn : n = params.length
  · subst hn
    rw [v1StatusBytes_body, v1StatusBytes_check, v1StatusBytes_params]
    by_cases hc : check = chk8 (statusBody .v1 id err params)
    · simp only [hc, verify_chk8, ne_eq, not_true_eq_false, if_false, if_true]
      rfl
    · simp [verify, hc, Ne.symm hc]
  · rw [if_pos (by omega), if_pos hn]

/-- A frame is answered only for its own bytes, with the right checksum. -/
theorem eq_of_decodeStatusV1 {n : Nat} {b : List Byte} {f : StatusFrame} (h : decodeStatusV1 n b = .frame f) :
    ∃ id err params t, params.length = n ∧ n ≤ 253 ∧ b = statusFrame .v1 id err params ++ t ∧
      f = { id := id, instr := none, err := err, params := params, check := .v1 (chk8 (statusBody .v1 id err params)) } := by
  rw [decodeStatusV1] at h
  obtain ⟨-, h⟩ := passed_of_frame h
  obtain ⟨hmarker, h⟩ := passed_of_frame h
  obtain ⟨hlen, h⟩ := passed_of_frame h
  obtain ⟨hfield, h⟩ := passed_of_frame h
  split at h
  next hverify =>
    cases h
    have hbound := (byteAt b 3).isLt
    obtain ⟨hparams, hb⟩ := eq_v1StatusBytes_append (k := n) (not_not.1 hmarker) (not_not.1 hfield) (by omega)
    have hbody := v1StatusBytes_body (byteAt b 2) (byteAt b 4) (slice b 5 (5 + n)) (byteAt b (5 + n)) (b.drop (6 + n))
    rw [← hb, hparams] at hbody
    have hcheck : chk8 (statusBody .v1 (byteAt b 2) (byteAt b 4) (slice b 5 (5 + n))) = byteAt b (5 + n) := by
      rw [← hbody]
      exact of_decide_eq_true hverify
    refine ⟨byteAt b 2, byteAt b 4, slice b 5 (5 + n), b.drop (6 + n), hparams, by omega, ?_, ?_⟩
    · rw [statusFrame_v1_eq, hcheck]
      exact hb
    · rw [hcheck]
  next => cases h

/-! ### DECODE_STATUS, revision V2 -/

/-- DECODE_STATUS of the bytes of a V2 status frame, with whatever instruction byte and CRC they carry and whatever follows. -/
theorem decodeStatusV2_append (id instr err : Byte) {params : List Byte} (hp : params.length ≤ 65531) (check : Word) (n : Nat)
    (t : List Byte) :
    decodeStatusV2 n (v2StatusBytes id instr err params check ++ t) =
      if n ≠ params.length then .error .lengthMismatch
      else if check ≠ crc16OfBody switches (v2Body id (instr :: err :: params)) (stuff (v2Body id (instr :: err :: params)))
        then .error .integrityMismatch
      else .frame { id := id, instr := some instr, err := err, params := params, check := .v2 check } := by
  have hpayload : (instr :: err :: params).length = params.length + 2 := rfl
  obtain ⟨hid, hfield⟩ := v2Wire_header id (payload := instr :: err :: params) (by omega) check t
  have hbody := v2Body_length id (instr :: err :: params)
  have hstuff := stuff_length_le (v2Body id (instr :: err :: params))
  rw [v2StatusBytes_eq_v2Wire, decodeStatusV2, decodeStatusV2With, hfield, ← hbody, v2Wire_unstuffTake, v2Wire_append_length,
    v2Wire_marker, if_neg (by omega), if_neg (by simp)]
  dsimp only
  rw [if_neg (by omega), v2Wire_check, v2Wire_body, hid]
  by_cases hn : n = params.length
  · subst hn
    have hparams : slice (v2Body id (instr :: err :: params)) 5 (5 + params.length) = params := by
      rw [← List.append_nil (v2Body id (instr :: err :: params))]
      exact slice_middle (id :: le16 (BitVec.ofNat 16 (params.length + 4)) ++ [instr, err]) params [] rfl rfl
    have hunchecked : switches.checkStatusInstr = false := rfl
    rw [if_neg (by omega), hunchecked, Bool.false_and, if_neg Bool.false_ne_true, hparams]
    by_cases hc : check = crc16OfBody switches (v2Body id (instr :: err :: params)) (stuff (v2Body id (instr :: err :: params)))
    · simp only [hc, verify_crc16OfBody, ne_eq, not_true_eq_false, if_false, if_true]
      rfl
    · simp [verify, hc, Ne.symm hc]
  · rw [if_pos (by omega), if_pos hn]

/-- What a frame needs, check by check, and which frame it is. -/
theorem decodeStatusV2With_eq_frame_iff (w : Switches) (n : Nat) (b : List Byte) (f : StatusFrame) :
    decodeStatusV2With w n b = .frame f ↔
      7 ≤ b.length ∧ slice b 0 4 = v2Marker ∧ (fromLe16 (byteAt b 5) (byteAt b 6)).toNat = n + 4 ∧
      ∃ logical used, unstuffTake (b.drop 4) (n + 4 + 1) = some (logical, used) ∧ 4 + used + 2 ≤ b.length ∧
        (w.checkStatusInstr && byteAt logical 3 ≠ statusInstrByte) = false ∧
        verify w (.v2 logical (slice b 4 (4 + used)) (fromLe16 (byteAt b (4 + used)) (byteAt b (4 + used + 1)))) = true ∧
        f = { id := byteAt b 4, instr := some (byteAt logical 3), err := byteAt logical 4,
              params := slice logical 5 (5 + n),
              check := .v2 (fromLe16 (byteAt b (4 + used)) (byteAt b (4 + used + 1))) } := by
  constructor
  · intro h
    rw [decodeStatusV2With] at h
    obtain ⟨hshort, h⟩ := passed_of_frame h
    obtain ⟨hmarker, h⟩ := passed_of_frame h
    split at h
    · cases h
    next logical used htake =>
      obtain ⟨hlen, h⟩ := passed_of_frame h
      obtain ⟨hfield, h⟩ := passed_of_frame h
      obtain ⟨hinstr, h⟩ := passed_of_frame h
      split at h
      next hverify =>
        rw [not_not.1 hfield] at htake
        cases h
        exact ⟨by omega, not_not.1 hmarker, not_not.1 hfield, logical, used, htake, by omega, by simpa using hinstr,
          hverify, rfl⟩
      next => cases h
  · rintro ⟨hshort, hmarker, hfield, logical, used, htake, hlen, hinstr, hverify, rfl⟩
    rw [decodeStatusV2With, hfield, htake, if_neg (by omega), if_neg (by simp [hmarker])]
    dsimp only
    rw [if_neg (by omega), if_neg (by simp), hinstr, if_neg Bool.false_ne_true, if_pos hverify]

/-- Every byte a frame was read from stands before its end. -/
theorem decodeStatusV2With_append {w : Switches} {n : Nat} {b : List Byte} {f : StatusFrame}
    (h : decodeStatusV2With w n b = .frame f) (t : List Byte) : decodeStatusV2With w n (b ++ t) = .frame f := by
  obtain ⟨hshort, hmarker, hfield, logical, used, htake, hlen, hinstr, hverify, rfl⟩ :=
    (decodeStatusV2With_eq_frame_iff w n b f).1 h
  obtain ⟨used', htake', hused⟩ := unstuffTakeFrom_append t _ _ _ _ _ _ _ htake
  have hsame : used' = used := by
    rw [List.length_drop] at hused
    omega
  subst hsame
  rw [decodeStatusV2With_eq_frame_iff, byteAt_append_left t (by omega), byteAt_append_left t (by omega),
    byteAt_append_left t (by omega), slice_append_left t _ (by omega), List.drop_append_of_le_length (by omega)]
  refine ⟨by rw [List.length_append]; omega, hmarker, hfield, logical, used', htake', by rw [List.length_append]; omega,
    hinstr, ?_⟩
  rw [byteAt_append_left t (by omega), byteAt_append_left t (by omega), slice_append_left t _ (by omega)]
  exact ⟨hverify, rfl⟩

/-! ### Frames of the other revision -/

/-- A V1 status frame has no 00 where the V2 marker has one: its length field is not 0. -/
theorem decodeStatusV2_v1StatusBytes (id err : Byte) {params : List Byte} (hp : params.length ≤ 253) (check : Byte) (n : Nat) :
    decodeStatusV2 n (v1StatusBytes id err params check) =
      .error (if params = [] then .frameTooShort else .badMarker) := by
  have hlen := v1StatusBytes_append_length id err params check []
  have hfield := v1StatusBytes_length_field id err hp check []
  rw [List.append_nil] at hlen hfield
  rw [decodeStatusV2, decodeStatusV2With, hlen]
  by_cases hnil : params = []
  · subst hnil
    rfl
  · have hpos := List.length_pos_iff.2 hnil
    have hmarker : slice (v1StatusBytes id err params check) 0 4 ≠ v2Marker := by
      intro h
      have hzero : byteAt (v1StatusBytes id err params check) 3 = 0 := congrArg (byteAt · 3) h
      rw [hzero] at hfield
      simp at hfield
    rw [if_neg (by simp; omega), if_pos hmarker, if_neg hnil]

/-- A V2 status frame has 00 where V1 has the length, which is never 0. -/
theorem decodeStatusV1_v2StatusBytes (id instr err : Byte) (params : List Byte) (check : Word) (n : Nat) :
    decodeStatusV1 n (v2StatusBytes id instr err params check) = .error .lengthMismatch := by
  have hlen := v2Wire_append_length (v2Body id (instr :: err :: params)) check []
  rw [List.append_nil, ← v2StatusBytes_eq_v2Wire] at hlen
  have hmarker : slice (v2StatusBytes id instr err params check) 0 2 = v1Marker := rfl
  have hfield : (byteAt (v2StatusBytes id instr err params check) 3).toNat = 0 := rfl
  rw [decodeStatusV1, hlen, hmarker, hfield, if_neg (by omega), if_neg (by simp), if_neg (by omega), if_pos (by omega)]

/-! ### DECODE_STATUS is total -/

/-- The answers R98 to R100 allow: a frame with exactly `n` parameters, or one of four errors. -/
def IsStatusAnswer (n : Nat) (d : Decoded) : Prop :=
  (∃ f, d = .frame f ∧ f.params.length = n) ∨ d = .error .frameTooShort ∨ d = .error .badMarker ∨
    d = .error .lengthMismatch ∨ d = .error .integrityMismatch

theorem isStatusAnswer_of_cases {n : Nat} {d : Decoded}
    (hframe : ∀ f, d = .frame f → f.params.length = n)
    (herror : ∀ k, d = .error k → k = .frameTooShort ∨ k = .badMarker ∨ k = .lengthMismatch ∨ k = .integrityMismatch) :
    IsStatusAnswer n d := by
  cases d with
  | frame f => exact .inl ⟨f, rfl, hframe f rfl⟩
  | error k =>
    right
    simpa using herror k rfl

theorem decodeStatusV1_isStatusAnswer (n : Nat) (b : List Byte) : IsStatusAnswer n (decodeStatusV1 n b) := by
  refine isStatusAnswer_of_cases (fun f h => ?_) (fun k h => ?_)
  · obtain ⟨id, err, params, t, hlen, -, -, rfl⟩ := eq_of_decodeStatusV1 h
    exact hlen
  · rw [decodeStatusV1] at h
    split_ifs at h <;> cases h <;> simp

theorem decodeStatusV2_isStatusAnswer (n : Nat) (b : List Byte) : IsStatusAnswer n (decodeStatusV2 n b) := by
  refine isStatusAnswer_of_cases (fun f h => ?_) (fun k h => ?_)
  · obtain ⟨-, -, -, logical, used, htake, -, -, -, rfl⟩ := (decodeStatusV2With_eq_frame_iff switches n b f).1 h
    obtain ⟨-, hlogical, -, -⟩ := unstuffTakeFrom_some _ _ _ _ _ _ _ htake
    show (slice logical 5 (5 + n)).length = n
    rw [slice, List.length_take, List.length_drop]
    omega
  · rw [decodeStatusV2, decodeStatusV2With] at h
    split at h
    · cases h; simp
    split at h
    · cases h; simp
    split at h
    · cases h; simp
    dsimp only at h
    split at h
    · cases h; simp
    split at h
    · cases h; simp
    split at h
    · cases h; simp
    split at h <;> cases h
    simp

/-! ### The status rows -/

/-- The row V1.STATUS is DECODE_STATUS of its frame's bytes under CFG.REV (log 16). -/
theorem exec_v1Status_of_fits {s : State} {id err check : Byte} {params : List Byte} {n : Nat} {d : Decoded} (hr : s.Ready)
    (hp : params.length ≤ maxStatusParams .v1) (hd : decodeStatus s.cfg.rev n (v1StatusBytes id err params check) = d) :
    exec (.v1Status id err params check n) s = .next { s with ret := .decoded d } := by
  rw [exec_v1Status, whenAdmitted_of_ready hr, if_neg (Nat.not_lt.2 hp), hd]
  rfl

/-- The row V2.STATUS likewise. -/
theorem exec_v2Status_of_fits {s : State} {id instr err : Byte} {params : List Byte} {check : Word} {n : Nat} {d : Decoded}
    (hr : s.Ready) (hp : params.length ≤ maxStatusParams .v2)
    (hd : decodeStatus s.cfg.rev n (v2StatusBytes id instr err params check) = d) :
    exec (.v2Status id instr err params check n) s = .next { s with ret := .decoded d } := by
  rw [exec_v2Status, whenAdmitted_of_ready hr, if_neg (Nat.not_lt.2 hp), hd]
  rfl

/-! ### The obligations -/

/-- Settles O11: UNSTUFF_TAKE is UNSTUFF up to the k-th logical byte. -/
theorem unstuffTakeReturnsTheFirstBytes : Obligations.UnstuffTakeReturnsTheFirstBytes := by
  intro s w k hr
  rw [exec_unstuffTake, answer_of_ready hr]
  refine ⟨unstuffTake w k, rfl, unstuffTakeFrom_none w false 0 0 k, fun logical used h => ?_⟩
  obtain ⟨hlogical, -, hused, htaken⟩ := unstuffTakeFrom_some _ _ _ _ _ _ _ h
  exact ⟨hlogical, hused, htaken⟩

/-- Settles O12: before the first byte the window holds no FF. -/
theorem stuffedBodyNeverHoldsTheMarker : Obligations.StuffedBodyNeverHoldsTheMarker := by
  intro b before after h
  have hinfix : v2Marker <:+: stuff b := ⟨before, after, h.symm⟩
  refine not_marker_infix_stuffFrom b 0 0 0 0 (by decide) (by decide) ?_
  exact List.infix_cons (List.infix_cons hinfix)

/-- Settles O15: the frames ENCODE_STATUS builds are the layouts of R63 and R64, their 16-bit fields written as bytes. -/
theorem statusFrameLayouts : Obligations.StatusFrameLayouts := by
  intro s id err params hr
  constructor
  · intro hv hp body
    rw [exec_encodeStatusV1]
    exact onRevision_giveBytes_ok hr hv (encodeStatus_of_fits (rev := .v1) hp id err)
  · intro hv hp body crc
    have hpayload : (statusInstrByte :: err :: params).length = params.length + 2 := rfl
    have hbody : statusBody .v2 id err params = body := v2Body_eq id (payload := statusInstrByte :: err :: params) (by omega)
    have hframe := v2Frame_eq switches body
    rw [exec_encodeStatusV2]
    refine (onRevision_giveBytes_ok hr hv (encodeStatus_of_fits (rev := .v2) hp id err)).trans ?_
    rw [← hframe, ← hbody]
    rfl

/-- Settles O16: each operation's own test refuses. -/
theorem whatDoesNotFitIsRefused : Obligations.WhatDoesNotFitIsRefused := by
  intro s id err b instr params bytes c1 c2 n hr
  refine ⟨fun hv hp => ⟨?_, ?_⟩, fun hp => ?_, fun hv hp => ?_, fun hv hp => ?_, fun hp => ?_, fun hv hp hm => ?_,
    fun hv hp hm => ?_, fun hm => ?_, fun hv => ?_, fun hv => ?_⟩
  · rw [exec_encodeRequestV1]
    exact onRevision_giveBytes_error hr hv (encodeRequest_overflow (rev := .v1) hp _ id instr)
  · rw [exec_encodeStatusV1]
    exact onRevision_giveBytes_error hr hv (encodeStatus_overflow (rev := .v1) hp id err)
  · rw [exec_v1Status, whenAdmitted_of_ready hr]
    exact if_pos hp
  · rw [exec_encodeRequestV2]
    exact onRevision_giveBytes_error hr hv (encodeRequest_overflow (rev := .v2) hp _ id instr)
  · rw [exec_encodeStatusV2]
    exact onRevision_giveBytes_error hr hv (encodeStatus_overflow (rev := .v2) hp id err)
  · rw [exec_v2Status, whenAdmitted_of_ready hr]
    exact if_pos hp
  · rw [exec_encodeRequestV1]
    exact onRevision_giveBytes_error hr hv (encodeRequest_tooLong (rev := .v1) hp (by rwa [requestFrame_v1_length]))
  · rw [exec_encodeRequestV2]
    exact onRevision_giveBytes_error hr hv (encodeRequest_tooLong (rev := .v2) hp hm)
  · rw [exec_writeFrame, whenAdmitted_of_ready hr]
    exact if_pos hm
  · rw [exec_encodeRequestV1, exec_encodeStatusV1, exec_decodeStatusV1]
    exact ⟨onRevision_of_other hr hv _, onRevision_of_other hr hv _, answerOn_of_other hr hv _⟩
  · rw [exec_encodeRequestV2, exec_encodeStatusV2, exec_decodeStatusV2]
    exact ⟨onRevision_of_other hr hv _, onRevision_of_other hr hv _, answerOn_of_other hr hv _⟩

/-- Settles O19: the decoder's checks are the layout, read backwards. -/
theorem v1DecoderAcceptsExactlyTheLayout : Obligations.V1DecoderAcceptsExactlyTheLayout := by
  intro n b f
  constructor
  · intro h
    obtain ⟨id, err, params, t, hlen, hn, hb, rfl⟩ := eq_of_decodeStatusV1 h
    exact ⟨hlen, hn, rfl, rfl, t, hb⟩
  · obtain ⟨id, instr, err, params, check⟩ := f
    dsimp only
    rintro ⟨rfl, hn, rfl, rfl, t, rfl⟩
    exact decodeStatusV1_statusFrame_append id err hn t

/-- Settles O20: each check that fails has its error, and the frame has the parameters asked for. -/
theorem decoderReturnsFrameOrFourErrors : Obligations.DecoderReturnsFrameOrFourErrors := by
  intro s n b hr
  cases hv : s.cfg.rev with
  | v1 => exact ⟨_, fun _ => answerOn_of_ready hr hv _, nofun, decodeStatusV1_isStatusAnswer n b⟩
  | v2 => exact ⟨_, nofun, fun _ => answerOn_of_ready hr hv _, decodeStatusV2_isStatusAnswer n b⟩

/-- Settles O21: in V1 the frame is laid out before its tail, in V2 every check reads before the tail. -/
theorem decoderIgnoresBytesBehindTheFrame : Obligations.DecoderIgnoresBytesBehindTheFrame := by
  intro rev n b t f h
  cases rev with
  | v1 =>
    obtain ⟨hlen, hn, hinstr, hcheck, t', rfl⟩ := (v1DecoderAcceptsExactlyTheLayout n b f).1 h
    exact (v1DecoderAcceptsExactlyTheLayout n _ f).2 ⟨hlen, hn, hinstr, hcheck, t' ++ t, List.append_assoc ..⟩
  | v2 => exact decodeStatusV2With_append h t

/-- Settles O22: the row is DECODE_STATUS of its frame's bytes. -/
theorem v1StatusFrameIsDecoded : Obligations.V1StatusFrameIsDecoded := by
  intro s id err check params n hr hv hp
  have hdecode := decodeStatusV1_append id err hp check n []
  rw [List.append_nil] at hdecode
  exact exec_v1Status_of_fits hr hp (by rw [hv]; exact hdecode)

/-- Settles O23: the row is DECODE_STATUS of its frame's bytes. -/
theorem v2StatusFrameIsDecoded : Obligations.V2StatusFrameIsDecoded := by
  intro s id instr err params check n hr hv hp body
  have hpayload : (instr :: err :: params).length = params.length + 2 := rfl
  have hbody : v2Body id (instr :: err :: params) = body := v2Body_eq id (by omega)
  have hdecode := decodeStatusV2_append id instr err hp check n []
  rw [List.append_nil, hbody] at hdecode
  exact exec_v2Status_of_fits hr hp (by rw [hv]; exact hdecode)

/-- Settles O24: the fourth byte tells the revisions apart. -/
theorem otherRevisionNeverDecodes : Obligations.OtherRevisionNeverDecodes := by
  intro s id instr err params check1 check2 n hr
  constructor
  · intro hv hp
    exact exec_v1Status_of_fits hr hp (by rw [hv]; exact decodeStatusV2_v1StatusBytes id err hp check1 n)
  · intro hv hp
    exact exec_v2Status_of_fits hr hp (by rw [hv]; exact decodeStatusV1_v2StatusBytes id instr err params check2 n)

end Sys2Proof.Proofs
end

section
/-! PROOFS of the statements about the connection's life (R39, R140, R183, R200, R202) and the Transport Adapter (R126 to
R132). -/

namespace Sys2Proof.Proofs

open Sys2Proof.Machine Sys2Proof.Laws

/-! ### Admission -/

/-- Every operation but CONSTRUCT passes the same admission first (log 12). -/
theorem exec_eq_whenAdmitted {i : Instr} (h : isConstruct i = false) : ∃ run, ∀ s, exec i s = s.whenAdmitted run := by
  cases i
  case construct => cases h
  all_goals exact ⟨_, fun _ => rfl⟩

theorem exec_of_unbound {i : Instr} {s : State} (hi : isConstruct i = false) (hb : s.bound = false) :
    exec i s = .refused .notBound := by
  obtain ⟨run, hrun⟩ := exec_eq_whenAdmitted hi
  rw [hrun]
  exact whenAdmitted_of_unbound hb run

@[simp] theorem writeFrame_bound (b : List Byte) (s : State) : (writeFrame b s).1.bound = s.bound := by
  rw [writeFrame, drive_bound, send_bound, drive_bound]

@[simp] theorem readExact_bound (discard : Bool) (n : Nat) (s : State) : (readExact discard n s).1.bound = s.bound := by
  rw [readExact_eq]

@[simp] theorem transaction_bound (s : State) (req : Request) (frame : List Byte) :
    (s.transaction req frame).bound = s.bound := by
  rw [transaction_eq, returned_bound]

/-! ### The connection -/

/-- Settles O25: CONSTRUCT on a free PPE passes both of its tests. -/
theorem constructBindsTheConnection : Obligations.ConstructBindsTheConnection := by
  intro s ch dl rev mult echo tmo maxp hfree hmult
  rw [exec_construct, if_neg (by simp [hfree]), if_neg hmult]
  rfl

/-- Settles O27: an admitted TEARDOWN is its update. -/
theorem teardownOnlyUnbinds : Obligations.TeardownOnlyUnbinds := by
  intro s hr
  rw [exec_teardown, whenAdmitted_of_ready hr]

/-- Settles O28: of the six ways an instruction can go on, CONSTRUCT's and TEARDOWN's alone write BOUND. -/
theorem onlyConstructRunsUnbound : Obligations.OnlyConstructRunsUnbound := by
  refine ⟨rfl, fun i s hb hi => exec_of_unbound hi hb, fun i s t h => ?_⟩
  cases did_of_exec h with
  | constructed => rfl
  | unbound => rfl
  | gave _ plain v =>
    obtain ⟨notConstruct, notTeardown⟩ := plain
    rw [give_bound, notConstruct, if_neg Bool.false_ne_true, if_neg notTeardown]
  | wrote _ _ v => exact (give_bound _ v).trans (writeFrame_bound ..)
  | received _ v => exact (give_bound _ v).trans (readExact_bound ..)
  | transacted _ plain =>
    obtain ⟨notConstruct, notTeardown⟩ := plain
    rw [transaction_bound, notConstruct, if_neg Bool.false_ne_true, if_neg notTeardown]

/-- Settles O29: CONSTRUCT finds the PPE bound, every other operation finds FSM not Idle. -/
theorem runningTransactionRefusesEveryOperation : Obligations.RunningTransactionRefusesEveryOperation := by
  intro i s hb hf
  cases hi : isConstruct i with
  | true =>
    cases i
    case construct => rw [exec_construct, if_pos hb]
    all_goals cases hi
  | false =>
    obtain ⟨run, hrun⟩ := exec_eq_whenAdmitted hi
    rw [hrun]
    exact whenAdmitted_of_busy hb hf run

/-! ### The Transport Adapter -/

/-- Settles O31: WRITE_FRAME by what the channel reports. -/
theorem writeFrameAlwaysReleasesTheLine : Obligations.WriteFrameAlwaysReleasesTheLine := by
  intro s bytes hr hm
  rw [exec_writeFrame, whenAdmitted_of_ready hr, if_neg (Nat.not_lt.2 hm)]
  constructor
  · intro hf
    rw [writeFrame_sent hf]
    rfl
  · intro f hf
    rw [writeFrame_failed hf]
    rfl

/-- Settles O32: READ_EXACT by its four cases. -/
theorem readExactReturnsExactlyOrFails : Obligations.ReadExactReturnsExactlyOrFails := by
  intro s n hr q env
  rw [exec_readExact, whenAdmitted_of_ready hr]
  refine ⟨fun hn => ?_, fun hn hf hq => ?_, fun _ hf hq => ?_, fun after hn hf => ?_⟩
  · rw [hn, readExact_zero]
    rfl
  · rw [readExact_taken false hn hf hq]
    rfl
  · rw [readExact_timeout false hf hq]
    rfl
  · rw [readExact_fault false hn hf]
    rfl

/-- Settles O33: with n bytes pending the case of the timeout cannot be, and the bytes taken are the pending ones. -/
theorem enoughPendingBytesNeverTimeOut : Obligations.EnoughPendingBytesNeverTimeOut := by
  intro s n hr
  rw [exec_readExact, whenAdmitted_of_ready hr]
  rcases readExact_cases false n s with ⟨hn, e⟩ | ⟨-, -, hq, e⟩ | ⟨-, -, hq, e⟩ | ⟨-, after, hf, e⟩ <;> rw [e]
  · subst hn
    exact ⟨_, rfl, .inl ⟨[], rfl, rfl⟩, nofun, fun _ _ => rfl⟩
  · refine ⟨_, rfl, .inl ⟨_, rfl, List.length_take_of_le hq⟩, nofun, fun hpending _ => ?_⟩
    rw [List.take_append_of_le_length hpending]
    rfl
  · have hshort : ¬ n ≤ s.rxq.length := fun hpending => by
      rw [List.length_append] at hq
      omega
    exact ⟨_, rfl, .inr (.inl rfl), fun h => absurd h hshort, fun h => absurd h hshort⟩
  · exact ⟨_, rfl, .inr (.inr rfl), nofun, fun _ hnone => absurd hnone (by simp [hf])⟩

end Sys2Proof.Proofs
end

section
/-! PROOFS of the statements about the Transaction Engine (R140 to R154, R209): a transaction moves what `transactionMoves` says,
and each statement evaluates that for its multiplicity and what the channel answers. -/

namespace Sys2Proof.Proofs

open Sys2Proof.Machine Sys2Proof.Laws

/-! ### What a transaction moves, case by case -/

theorem statusWireLen_ne_zero (rev : Rev) (n : Nat) : statusWireLen rev n ≠ 0 := by
  cases rev <;> exact Nat.succ_ne_zero _

theorem transactionMoves_failed {s : State} {f : TxFault} (h : s.env.nextTx.fault = some f) (n : Nat) (frame : List Byte) :
    transactionMoves s n frame =
      ⟨failedEvents frame f.sent, f.rxqAfter, { s.env with tx := s.env.tx.tail }, .err .transportFailure⟩ := by
  simp [transactionMoves, h]

theorem transactionMoves_sent {s : State} (h : s.env.nextTx.fault = none) {n : Nat} {w : Moved TxnOutcome}
    (hw : discardThenReply s.cfg n (s.rxq ++ s.env.nextTx.arrivals) { s.env with tx := s.env.tx.tail } = w)
    (frame : List Byte) : transactionMoves s n frame = ⟨sentEvents frame ++ w.events, w.rxq, w.env, w.result⟩ := by
  simp [transactionMoves, h, hw]

section

variable {c : Cfg} {n : Nat} {q : List Byte} {env : Environment}

theorem reply_of_mult_zero (hm : c.mult = 0) : reply c n q env = ⟨[], q, env, .okNone⟩ := by simp [reply, hm]

theorem reply_of_receive (hm : c.mult ≠ 0) {r : Moved (Answer (List Byte))}
    (hr : receive false (statusWireLen c.rev n) q env = r) :
    reply c n q env = ⟨r.events, r.rxq, r.env, replyOutcome c.rev n r.result⟩ := by
  rw [reply, if_neg hm, hr]

theorem discardThenReply_of_no_echo (hm : c.mult ≠ 2) : discardThenReply c n q env = reply c n q env :=
  if_neg hm

theorem discardThenReply_of_raised (hm : c.mult = 2) {r : Moved (Answer (List Byte))} {k : ErrorKind}
    (hr : receive true c.echoLen q env = r) (hk : r.result = .raised k) :
    discardThenReply c n q env = ⟨r.events, r.rxq, r.env, .err k⟩ := by simp [discardThenReply, hm, hr, hk]

theorem discardThenReply_of_ok (hm : c.mult = 2) {r : Moved (Answer (List Byte))} {b : List Byte} {p : Moved TxnOutcome}
    (hr : receive true c.echoLen q env = r) (hb : r.result = .ok b) (hp : reply c n r.rxq r.env = p) :
    discardThenReply c n q env = ⟨r.events ++ p.events, p.rxq, p.env, p.result⟩ := by
  simp [discardThenReply, hm, hr, hb, hp]

/-- The status receive alone, at multiplicity 1. -/
theorem discardThenReply_of_mult_one (hm : c.mult = 1) {r : Moved (Answer (List Byte))}
    (hr : receive false (statusWireLen c.rev n) q env = r) :
    discardThenReply c n q env = ⟨r.events, r.rxq, r.env, replyOutcome c.rev n r.result⟩ :=
  (discardThenReply_of_no_echo (by simp [hm])).trans (reply_of_receive (by simp [hm]) hr)

/-- The discard and the status receive, at multiplicity 2. -/
theorem discardThenReply_of_mult_two (hm : c.mult = 2) {r p : Moved (Answer (List Byte))} {b : List Byte}
    (hr : receive true c.echoLen q env = r) (hb : r.result = .ok b)
    (hp : receive false (statusWireLen c.rev n) r.rxq r.env = p) :
    discardThenReply c n q env = ⟨r.events ++ p.events, p.rxq, p.env, replyOutcome c.rev n p.result⟩ :=
  discardThenReply_of_ok hm hr hb (reply_of_receive (by simp [hm]) hp)

/-- A discard of no bytes takes nothing and waits for nothing (R129). -/
theorem discardThenReply_of_echo_zero (hm : c.mult = 2) (hk : c.echoLen = 0) {p : Moved (Answer (List Byte))}
    (hp : receive false (statusWireLen c.rev n) q env = p) :
    discardThenReply c n q env = ⟨p.events, p.rxq, p.env, replyOutcome c.rev n p.result⟩ :=
  discardThenReply_of_mult_two (r := ⟨[], q, env, .ok []⟩) hm (by rw [hk]; rfl) rfl hp

end

/-! ### An admitted transaction -/

section

variable {s : State} {id : Byte} {instr : WireInstr} {params : List Byte} {n : Nat} {i : Instr}
  (ha : s.Admits id instr params n) (hi : IsTransaction s.cfg.rev id instr params n i)

include ha hi

/-- Both forms of an admitted transaction return with what `transactionMoves` says. -/
theorem exec_eq_returned {w : Moved TxnOutcome} (hw : transactionMoves s n (requestFrame s.cfg.rev id instr params) = w) :
    exec i s = .next (s.returned w.events w.rxq w.env w.result) := by
  rw [exec_of_isTransaction hi, exec_transact_of_admits ha, transaction_eq, hw]

theorem exec_eq_returned_sent (htx : s.env.nextTx.fault = none) {w : Moved TxnOutcome}
    (hw : discardThenReply s.cfg n (s.rxq ++ s.env.nextTx.arrivals) { s.env with tx := s.env.tx.tail } = w) :
    exec i s =
      .next (s.returned (sentEvents (requestFrame s.cfg.rev id instr params) ++ w.events) w.rxq w.env w.result) :=
  exec_eq_returned ha hi (transactionMoves_sent htx hw _)

end

/-! ### Completion, the line, and no retries -/

/-- Settles O34: the transaction in closed form; the answers for CONSTRUCT and between the operations are not asked. -/
theorem everyAdmittedTransactionReturns : Obligations.EveryAdmittedTransactionReturns := by
  intro s id instr params n i ha hi
  cases htx : s.env.nextTx.fault with
  | some f => exact ⟨_, _, _, _, exec_eq_returned ha hi (transactionMoves_failed htx n _), rfl, rfl⟩
  | none =>
    have hreceives := receives_discardThenReply s.cfg n (s.rxq ++ s.env.nextTx.arrivals) { s.env with tx := s.env.tx.tail }
    exact ⟨_, _, _, _, exec_eq_returned_sent ha hi htx rfl, hreceives.bind, hreceives.between⟩

/-- Settles O35: after the frame the line shows the receives of `discardThenReply` alone. -/
theorem oneRequestFrameAndNoRetries : Obligations.OneRequestFrameAndNoRetries := by
  intro s t id instr params n i ha hi h frame
  cases htx : s.env.nextTx.fault with
  | some f =>
    rw [exec_eq_returned ha hi (transactionMoves_failed htx n _)] at h
    cases h
    exact .inl ⟨f, rfl, rfl⟩
  | none =>
    have hreceives := receives_discardThenReply s.cfg n (s.rxq ++ s.env.nextTx.arrivals) { s.env with tx := s.env.tx.tail }
    rw [exec_eq_returned_sent ha hi htx rfl] at h
    cases h
    exact .inr ⟨_, (List.append_assoc ..).symm, hreceives.count, hreceives.onlyReceives, hreceives.bytes, hreceives.inOrder⟩

/-- Settles O39: a failed send leaves nothing to receive. -/
theorem sendFaultEndsTheTransaction : Obligations.SendFaultEndsTheTransaction :=
  fun _ _ _ _ n _ _ ha hi htx => exec_eq_returned ha hi (transactionMoves_failed htx n _)

/-! ### The multiplicities -/

/-- Settles O36: neither AwaitFirst nor AwaitReply reads. -/
theorem multiplicityZeroReadsNothing : Obligations.MultiplicityZeroReadsNothing := by
  intro s id instr params n i ha hi hm htx
  rw [exec_eq_returned_sent ha hi htx ((discardThenReply_of_no_echo (by simp [hm])).trans (reply_of_mult_zero hm)),
    List.append_nil]

/-- Settles O37: the status receive takes its bytes, and their decode is the outcome. -/
theorem multiplicityOneDecodesOneReceive : Obligations.MultiplicityOneDecodesOneReceive := by
  intro s id instr params n i ha hi hm htx hrx q m hlen
  exact exec_eq_returned_sent ha hi htx
    (discardThenReply_of_mult_one hm (receive_taken false (statusWireLen_ne_zero _ _) hrx hlen))

/-- Settles O38: the discard takes its bytes, then the status receive its own. -/
theorem multiplicityTwoDiscardsTheEcho : Obligations.MultiplicityTwoDiscardsTheEcho := by
  intro s id instr params n i ha hi hm htx hrx k m sent q1
  constructor
  · rintro hk b rfl hrx2 q2 hecho hlen
    exact exec_eq_returned_sent ha hi htx
      (discardThenReply_of_mult_two hm (receive_taken true hk hrx hecho) rfl
        (receive_taken false (statusWireLen_ne_zero _ _) hrx2 hlen))
  · intro hk hlen
    exact exec_eq_returned_sent ha hi htx
      (discardThenReply_of_echo_zero hm hk (receive_taken false (statusWireLen_ne_zero _ _) hrx hlen))

/-- Settles O40: a discard that raises is the end. -/
theorem echoReceiveErrorEndsTheTransaction : Obligations.EchoReceiveErrorEndsTheTransaction := by
  intro s id instr params n i ha hi hm htx hk sent q env
  constructor
  · intro hrx hshort
    exact exec_eq_returned_sent ha hi htx (discardThenReply_of_raised hm (receive_timeout true hrx hshort) rfl)
  · intro after hrx
    exact exec_eq_returned_sent ha hi htx (discardThenReply_of_raised hm (receive_fault true hk hrx) rfl)

/-- Settles O41: what the status receive raises is the outcome. -/
theorem replyReceiveErrorIsTheOutcome : Obligations.ReplyReceiveErrorIsTheOutcome := by
  intro s id instr params n i ha hi hm htx sent q env
  constructor
  · intro hrx hshort
    exact exec_eq_returned_sent ha hi htx (discardThenReply_of_mult_one hm (receive_timeout false hrx hshort))
  · intro after hrx
    exact exec_eq_returned_sent ha hi htx
      (discardThenReply_of_mult_one hm (receive_fault false (statusWireLen_ne_zero _ _) hrx))

/-- Settles O42: as O41, behind a discard that took its bytes or had none to take. -/
theorem replyReceiveErrorAfterTheEcho : Obligations.ReplyReceiveErrorAfterTheEcho := by
  intro s id instr params n i ha hi hm htx k q1 sent
  constructor
  · rintro hk hrx hecho b rfl q2 echo env
    have hdiscard := receive_taken (rxq := s.rxq ++ s.env.nextTx.arrivals) (env := { s.env with tx := s.env.tx.tail })
      true hk hrx hecho
    constructor
    · intro hrx2 hshort
      exact exec_eq_returned_sent ha hi htx
        (discardThenReply_of_mult_two hm hdiscard rfl (receive_timeout false hrx2 hshort))
    · intro after hrx2
      exact exec_eq_returned_sent ha hi htx
        (discardThenReply_of_mult_two hm hdiscard rfl (receive_fault false (statusWireLen_ne_zero _ _) hrx2))
  · intro hk env
    constructor
    · intro hrx hshort
      exact exec_eq_returned_sent ha hi htx (discardThenReply_of_echo_zero hm hk (receive_timeout false hrx hshort))
    · intro after hrx
      exact exec_eq_returned_sent ha hi htx
        (discardThenReply_of_echo_zero hm hk (receive_fault false (statusWireLen_ne_zero _ _) hrx))

/-! ### Ok(None) -/

theorem replyOutcome_ne_okNone (rev : Rev) (n : Nat) (a : Answer (List Byte)) : replyOutcome rev n a ≠ .okNone := by
  cases a with
  | raised k => exact nofun
  | ok b =>
    intro h
    rw [replyOutcome] at h
    cases hd : decodeStatus rev n b <;> rw [hd] at h <;> cases h

theorem reply_result_ne_okNone {c : Cfg} (hm : c.mult ≠ 0) (n : Nat) (q : List Byte) (env : Environment) :
    (reply c n q env).result ≠ .okNone := by
  rw [reply_of_receive hm rfl]
  exact replyOutcome_ne_okNone _ _ _

theorem discardThenReply_result_ne_okNone {c : Cfg} (hm : c.mult ≠ 0) (n : Nat) (q : List Byte) (env : Environment) :
    (discardThenReply c n q env).result ≠ .okNone := by
  by_cases h2 : c.mult = 2
  · cases hr : (receive true c.echoLen q env).result with
    | raised k =>
      rw [discardThenReply_of_raised h2 rfl hr]
      exact nofun
    | ok b =>
      rw [discardThenReply_of_ok h2 rfl hr rfl]
      exact reply_result_ne_okNone hm _ _ _
  · rw [discardThenReply_of_no_echo h2]
    exact reply_result_ne_okNone hm _ _ _

/-- Settles O43: a status receive ends in a frame or an error, never in None. -/
theorem noneOnlyWithMultiplicityZero : Obligations.NoneOnlyWithMultiplicityZero := by
  intro s t id instr params n i ha hi h
  cases htx : s.env.nextTx.fault with
  | some f =>
    rw [exec_eq_returned ha hi (transactionMoves_failed htx n _)] at h
    cases h
    exact ⟨nofun, fun _ => .inr rfl⟩
  | none =>
    by_cases hm : s.cfg.mult = 0
    · rw [multiplicityZeroReadsNothing s id instr params n i ha hi hm htx] at h
      cases h
      exact ⟨fun _ => hm, fun _ => .inl rfl⟩
    · rw [exec_eq_returned_sent ha hi htx rfl] at h
      cases h
      rw [returned_ret]
      exact ⟨fun hret => absurd (Returned.outcome.inj hret) (discardThenReply_result_ne_okNone hm _ _ _),
        fun h0 => absurd h0 hm⟩

/-! ### Replies in RXQ of the scripted transport -/

/-- DECODE_STATUS of an encoded status frame is a frame with its id, error byte and parameters. -/
theorem decodeStatus_statusFrame (rev : Rev) (id err : Byte) {params : List Byte} (hp : params.length ≤ maxStatusParams rev) :
    ∃ f, decodeStatus rev params.length (statusFrame rev id err params) = .frame f ∧
      f.id = id ∧ f.err = err ∧ f.params = params := by
  cases rev with
  | v1 => exact ⟨_, statusFrameRoundTrip.1 id err params hp, rfl, rfl, rfl⟩
  | v2 => exact ⟨_, statusFrameRoundTrip.2 switches id err params hp, rfl, rfl, rfl⟩

theorem statusFrame_v2_length (id err : Byte) (params : List Byte) :
    (statusFrame .v2 id err params).length = (stuff (statusBody .v2 id err params)).length + 6 :=
  v2Frame_length switches _

/-- Without stuffing a status frame has the wire length the receive asks for (R68). -/
theorem statusFrame_length_of_unstuffed (rev : Rev) (id err : Byte) (params : List Byte)
    (h : rev = .v2 → stuff (statusBody .v2 id err params) = statusBody .v2 id err params) :
    (statusFrame rev id err params).length = statusWireLen rev params.length := by
  cases rev with
  | v1 => rw [statusFrame, statusFrameWith, v1Frame_length, statusBody_length]; rfl
  | v2 => rw [statusFrame_v2_length, h rfl, statusBody_length]; rfl

/-- A stuffed body is longer, or it is the body. -/
theorem length_lt_stuff {b : List Byte} (h : stuff b ≠ b) : b.length < (stuff b).length :=
  lt_of_le_of_ne (stuff_length_le b) fun he => h (stuffFrom_eq_self b 0 0 he.symm)

/-- Cut off at the length of the unstuffed frame, a stuffed one is short of its own CRC. -/
theorem decodeStatusV2_take_of_stuffed (id err : Byte) {params : List Byte} (hp : params.length ≤ 65531)
    (hstuffed : stuff (statusBody .v2 id err params) ≠ statusBody .v2 id err params) :
    decodeStatusV2 params.length ((statusFrame .v2 id err params).take (params.length + 11)) = .error .frameTooShort := by
  have hlonger := length_lt_stuff hstuffed
  have hbody : (statusBody .v2 id err params).length = params.length + 4 + 1 := statusBody_length ..
  have hframe := statusFrame_v2_length id err params
  have hfield : (fromLe16 (byteAt (statusFrame .v2 id err params) 5) (byteAt (statusFrame .v2 id err params) 6)).toNat =
      params.length + 4 := by
    obtain ⟨-, h⟩ := v2Frame_statusBody_length_field switches id err hp []
    rwa [List.append_nil] at h
  have htake : unstuffTake ((statusFrame .v2 id err params).drop 4) (params.length + 4 + 1) =
      some (statusBody .v2 id err params, (stuff (statusBody .v2 id err params)).length) := by
    have hwire := v2Wire_unstuffTake (statusBody .v2 id err params)
      (crc16OfBody switches (statusBody .v2 id err params) (stuff (statusBody .v2 id err params))) []
    rwa [List.append_nil, hbody] at hwire
  have hmarker : slice (statusFrame .v2 id err params) 0 4 = v2Marker := rfl
  generalize hcut : (statusFrame .v2 id err params).take (params.length + 11) = cut
  have hlen : cut.length = params.length + 11 := by rw [← hcut]; exact List.length_take_of_le (by omega)
  rw [← List.take_append_drop (params.length + 11) (statusFrame .v2 id err params), hcut] at hfield hmarker htake
  rw [byteAt_append_left _ (by omega), byteAt_append_left _ (by omega)] at hfield
  rw [slice_append_left _ _ (by omega)] at hmarker
  rw [List.drop_append_of_le_length (by omega)] at htake
  rw [decodeStatusV2, decodeStatusV2With, hfield, if_neg (by omega), if_neg (by simp [hmarker])]
  split
  · rfl
  next logical used hcutTake =>
    obtain ⟨used', htake', hused⟩ := unstuffTakeFrom_append _ _ _ _ _ _ _ _ hcutTake
    have hsame : used' = (stuff (statusBody .v2 id err params)).length :=
      congrArg Prod.snd (Option.some.inj (htake'.symm.trans htake))
    rw [List.length_drop] at hused
    exact if_pos (by omega)

/-- Settles O44: the discard ends where the frame begins, and the receive where the frame ends. -/
theorem junkBeforeTheReplyIsDropped : Obligations.JunkBeforeTheReplyIsDropped := by
  intro s id rid err instr params reply junk i ha hi hm henv hjunk hrxq hunstuffed
  have htx : s.env.nextTx = ⟨[], none⟩ := by rw [henv]; rfl
  have hrx : s.env.nextRx = ⟨[], none⟩ := by rw [henv]; rfl
  have hrx2 : { s.env with rx := s.env.rx.tail }.nextRx = ⟨[], none⟩ := by rw [henv]; rfl
  have hfits : reply.length ≤ maxStatusParams s.cfg.rev := by
    obtain ⟨_, _, hn, _⟩ := ha
    exact hn
  have hlen := statusFrame_length_of_unstuffed s.cfg.rev rid err reply hunstuffed
  have hqueue : s.rxq ++ s.env.nextTx.arrivals ++ s.env.nextRx.arrivals = junk ++ statusFrame s.cfg.rev rid err reply := by
    rw [htx, hrx, hrxq, List.append_nil, List.append_nil]
  obtain ⟨f, hdecode, hid, herr, hparams⟩ := decodeStatus_statusFrame s.cfg.rev rid err hfits
  obtain ⟨hecho, hnoEcho⟩ :=
    multiplicityTwoDiscardsTheEcho s id instr params reply.length i ha hi hm (by rw [htx]) (by rw [hrx])
  rw [hqueue] at hecho hnoEcho
  by_cases hk : s.cfg.echoLen = 0
  · obtain rfl := List.eq_nil_of_length_eq_zero (hjunk.trans hk)
    have hexec := hnoEcho hk hlen.ge
    rw [List.nil_append, ← hlen, List.take_length, List.drop_length, hdecode] at hexec
    exact ⟨_, f, hexec, rfl, hid, herr, hparams, rfl⟩
  · have hexec := hecho hk _ hrx2.symm rfl (by simp [hjunk]) (by simp [← hjunk, hlen])
    rw [← hjunk, List.drop_left, List.append_nil, ← hlen, List.take_length, List.drop_length, hdecode] at hexec
    exact ⟨_, f, hexec, rfl, hid, herr, hparams, rfl⟩

/-- Settles O45: the receive of R209 ends inside the frame, and what is left of it stays in RXQ. -/
theorem stuffedReplyIsTooShort : Obligations.StuffedReplyIsTooShort := by
  intro s id rid err instr params reply i ha hi hv hm henv hp hrxq hstuffed
  have htx : s.env.nextTx = ⟨[], none⟩ := by rw [henv]; rfl
  have hrx : s.env.nextRx = ⟨[], none⟩ := by rw [henv]; rfl
  have hqueue : s.rxq ++ s.env.nextTx.arrivals ++ s.env.nextRx.arrivals = statusFrame .v2 rid err reply := by
    rw [htx, hrx, hrxq, List.append_nil, List.append_nil]
  have hwire : statusWireLen s.cfg.rev reply.length = reply.length + 11 := by rw [hv]; rfl
  have hlonger : reply.length + 11 < (statusFrame .v2 rid err reply).length := by
    have hbody : (statusBody .v2 rid err reply).length = reply.length + 5 := statusBody_length ..
    have hstuff := length_lt_stuff hstuffed
    rw [statusFrame_v2_length]
    omega
  have hexec := multiplicityOneDecodesOneReceive s id instr params reply.length i ha hi hm (by rw [htx]) (by rw [hrx])
  rw [hqueue, hwire] at hexec
  have hdecode : decodeStatus s.cfg.rev reply.length ((statusFrame .v2 rid err reply).take (reply.length + 11)) =
      .error .frameTooShort := by
    rw [hv]
    exact decodeStatusV2_take_of_stuffed rid err hp hstuffed
  have hreturn := hexec hlonger.le
  rw [hdecode] at hreturn
  refine ⟨_, hreturn, rfl, rfl, ?_⟩
  rw [returned_rxq, ne_eq, List.drop_eq_nil_iff]
  omega

/-! ### What a transaction does not depend on -/

/-- Only the events depend on the frame, and with it on the id. -/
theorem transactionMoves_frame (s : State) (n : Nat) (frame frame' : List Byte) :
    (transactionMoves s n frame).result = (transactionMoves s n frame').result ∧
    (transactionMoves s n frame).rxq = (transactionMoves s n frame').rxq ∧
    (transactionMoves s n frame).env = (transactionMoves s n frame').env := by
  cases htx : s.env.nextTx.fault with
  | some f => simp only [transactionMoves_failed htx, and_self]
  | none => simp only [transactionMoves_sent htx rfl, and_self]

/-- Settles O46: the id goes into the request frame and nowhere else. -/
theorem outcomeDoesNotDependOnTheId : Obligations.OutcomeDoesNotDependOnTheId := by
  intro s t u id id' instr params n ht hu
  obtain ⟨-, rfl⟩ := exec_transact_eq_next ht
  obtain ⟨-, rfl⟩ := exec_transact_eq_next hu
  obtain ⟨hresult, hrxq, henv⟩ :=
    transactionMoves_frame s n (requestFrame s.cfg.rev id instr params) (requestFrame s.cfg.rev id' instr params)
  simp only [transaction_eq, returned_ret, returned_rxq, returned_env]
  exact ⟨congrArg Returned.outcome hresult, hrxq, henv⟩

/-- Settles O47: admission reads BOUND, FSM and CFG, and the transaction in closed form RXQ and the environment besides. -/
theorem nothingPersistsIntoATransaction : Obligations.NothingPersistsIntoATransaction := by
  intro s req txbuf rxbuf out ret id instr params n i hi
  have hi' : IsTransaction { s with req := req, txbuf := txbuf, rxbuf := rxbuf, out := out, ret := ret }.cfg.rev
    id instr params n i := hi
  rw [exec_of_isTransaction hi, exec_of_isTransaction hi', exec_transact, exec_transact]
  have hadmission : { s with req := req, txbuf := txbuf, rxbuf := rxbuf, out := out, ret := ret }.refusal? = s.refusal? := rfl
  have hrun : transactAdmitted id instr params n { s with req := req, txbuf := txbuf, rxbuf := rxbuf, out := out, ret := ret } =
      transactAdmitted id instr params n s := by
    simp only [transactAdmitted, transaction_eq]
    rfl
  rw [State.whenAdmitted, State.whenAdmitted, hadmission, hrun]

/-! ### The walk of the sequencer -/

/-- Some number of the machine's steps, no more than `m`, does what `m` advances do: in Idle there is nothing to advance. -/
theorem run_advance (m : Nat) : ∀ s : State, ∃ k, k ≤ m ∧ Sys2Proof.core.run k s = .next (State.advance^[m] s) := by
  induction m with
  | zero => exact fun s => ⟨0, Nat.le_refl 0, rfl⟩
  | succ m ih =>
    intro s
    by_cases hf : s.fsm = .idle
    · refine ⟨0, Nat.zero_le _, ?_⟩
      rw [Function.iterate_fixed (advance_idle hf)]
      rfl
    · obtain ⟨k, hk, hrun⟩ := ih s.advance
      exact ⟨k + 1, Nat.succ_le_succ hk, (core_run_next k (step_of_running hf)).trans hrun⟩

/-- Settles O48: the walk is three advances at most. -/
theorem transactionIsTheWalkOfTheSequencer : Obligations.TransactionIsTheWalkOfTheSequencer := by
  intro s t id instr params n h
  obtain ⟨-, rfl⟩ := exec_transact_eq_next h
  exact run_advance 3 _

end Sys2Proof.Proofs
end

section
/-! PROOFS of the statements about admission and the Register Access Facade (R140, R160 to R163), and about what a step runs
(R34, R57, R204). -/

namespace Sys2Proof.Proofs

open Sys2Proof.Machine Sys2Proof.Laws

/-! ### READ and WRITE -/

theorem readFits_iff (rev : Rev) (address length : Nat) :
    readFits rev address length = true ↔ address ≤ maxAddress rev ∧ length ≤ maxStatusParams rev := by
  simp [readFits]

theorem writeFits_iff (rev : Rev) (address dataLen : Nat) :
    writeFits rev address dataLen = true ↔ address ≤ maxAddress rev ∧ dataLen ≤ maxWriteData rev := by
  simp [writeFits]

/-- READ of operands in range is its TRANSACT. -/
theorem exec_read_of_fits {s : State} (hr : s.Ready) (id : Byte) {address length : Nat}
    (ha : address ≤ maxAddress s.cfg.rev) (hl : length ≤ maxStatusParams s.cfg.rev) :
    exec (.read id address length) s = exec (.transact id .read (readParams s.cfg.rev address length) length) s := by
  rw [exec_read, whenAdmitted_of_ready hr, (readFits_iff ..).2 ⟨ha, hl⟩]
  rfl

/-- WRITE of operands in range is its TRANSACT. -/
theorem exec_write_of_fits {s : State} (hr : s.Ready) (id : Byte) {address : Nat} {data : List Byte}
    (ha : address ≤ maxAddress s.cfg.rev) (hl : data.length ≤ maxWriteData s.cfg.rev) :
    exec (.write id address data) s = exec (.transact id .write (writeParams s.cfg.rev address data) 0) s := by
  rw [exec_write, whenAdmitted_of_ready hr, (writeFits_iff ..).2 ⟨ha, hl⟩]
  rfl

theorem field_v2 {v : Nat} (h : v ≤ 0xFFFF) : field .v2 v = [BitVec.ofNat 8 v, BitVec.ofNat 8 (v / 256)] :=
  le16_ofNat v (by omega)

theorem readParams_length_le (rev : Rev) (address length : Nat) :
    (readParams rev address length).length ≤ maxRequestParams rev := by
  cases rev with
  | v1 => exact (by decide : 2 ≤ 253)
  | v2 => exact (by decide : 4 ≤ 65532)

theorem writeParams_length_le {rev : Rev} (address : Nat) {data : List Byte} (h : data.length ≤ maxWriteData rev) :
    (writeParams rev address data).length ≤ maxRequestParams rev := by
  rw [writeParams, List.length_append]
  cases rev with
  | v1 => exact (Nat.add_comm ..).trans_le (Nat.succ_le_succ h)
  | v2 => exact (Nat.add_comm ..).trans_le (Nat.add_le_add_right h 2)

/-- TRANSACT past all four tests returns. -/
theorem transact_returns {s : State} {id : Byte} {instr : WireInstr} {params : List Byte} {n : Nat}
    (h : s.Admits id instr params n) :
    ∃ events rxq env o, exec (.transact id instr params n) s = .next (s.returned events rxq env o) :=
  ⟨_, _, _, _, exec_eq_returned h (.inl rfl) rfl⟩

/-! ### The obligations about admission and the facade -/

/-- Settles O49: in range, READ and WRITE are TRANSACT of the parameter bytes R73 names. -/
theorem facadeOperationsAreOneTransact : Obligations.FacadeOperationsAreOneTransact := by
  intro s id hr
  refine ⟨exec_ping id s, ?_, ?_, ?_, ?_⟩
  · intro address length hv ha hl
    rw [exec_read_of_fits hr id (by rw [hv]; exact ha) (by rw [hv]; exact hl), hv]
    rfl
  · intro address length hv ha hl
    rw [exec_read_of_fits hr id (by rw [hv]; exact ha) (by rw [hv]; exact hl), hv, readParams, field_v2 ha,
      field_v2 (by omega)]
    rfl
  · intro address data hv ha hl
    rw [exec_write_of_fits hr id (by rw [hv]; exact ha) (by rw [hv]; exact hl), hv]
    rfl
  · intro address data hv ha hl
    rw [exec_write_of_fits hr id (by rw [hv]; exact ha) (by rw [hv]; exact hl), hv, writeParams, field_v2 ha]

/-- Settles O50: the parameter bytes of operands in range fit the request, so the transaction is admitted. -/
theorem facadeOperationsReturn : Obligations.FacadeOperationsReturn := by
  intro s id hr
  refine ⟨fun hm => ?_, fun address length ha hl hm => ?_, fun address data ha hl hm => ?_⟩
  · rw [exec_ping]
    exact transact_returns ⟨hr, Nat.zero_le _, Nat.zero_le _, hm⟩
  · rw [exec_read_of_fits hr id ha hl]
    exact transact_returns ⟨hr, readParams_length_le .., hl, hm⟩
  · rw [exec_write_of_fits hr id ha hl]
    exact transact_returns ⟨hr, writeParams_length_le address hl, Nat.zero_le _, hm⟩

/-- Settles O51: the operand test of READ and WRITE fails. -/
theorem facadeRefusesOperandsOutOfRange : Obligations.FacadeRefusesOperandsOutOfRange := by
  intro s id address hr
  constructor
  · intro length hout
    have hfits : readFits s.cfg.rev address length = false := by
      rw [Bool.eq_false_iff, ne_eq, readFits_iff]
      omega
    rw [exec_read, whenAdmitted_of_ready hr, hfits]
    rfl
  · intro data hout
    have hfits : writeFits s.cfg.rev address data.length = false := by
      rw [Bool.eq_false_iff, ne_eq, writeFits_iff]
      omega
    rw [exec_write, whenAdmitted_of_ready hr, hfits]
    rfl

/-- Settles O52: each test of TRANSACT refuses behind the ones before it. -/
theorem transactAdmissionOrder : Obligations.TransactAdmissionOrder := by
  intro s id instr params n fits short
  rw [exec_transact]
  refine ⟨fun hb => whenAdmitted_of_unbound hb _, fun hb hf => whenAdmitted_of_busy hb hf _, fun hr hout => ?_,
    fun hr hfits hlong => ?_⟩
  · have hout' : requestFits s.cfg.rev params.length n = false := by
      rw [Bool.eq_false_iff, requestFits, ne_eq, Bool.and_eq_true_iff, decide_eq_true_iff, decide_eq_true_iff]
      exact hout
    rw [whenAdmitted_of_ready hr, transactAdmitted, hout']
    rfl
  · obtain ⟨hp, hn⟩ := hfits
    have hfits' : requestFits s.cfg.rev params.length n = true := by simp [requestFits, hp, hn]
    rw [whenAdmitted_of_ready hr, transactAdmitted, hfits', encodeRequest_tooLong hp (Nat.lt_of_not_le hlong)]
    rfl

/-- Settles O53: a request instruction is TRANSACT behind the test of its revision. -/
theorem requestsRunOnlyInTheirRevision : Obligations.RequestsRunOnlyInTheirRevision := by
  intro s rev instr id params n hr
  rw [exec_request, requestOn]
  constructor
  · exact fun hv => onRevision_of_other hr hv _
  · rintro rfl
    rw [onRevision_self, exec_transact]

/-! ### What a command stands for -/

theorem instr_of_offered {i : Instr} (hw : ∀ b, i ≠ .writeFrame b) (hr : ∀ n, i ≠ .readExact n) (rev : Rev) :
    (Command.call i).instr rev = .ok i := by
  cases i
  case writeFrame b => exact absurd rfl (hw b)
  case readExact n => exact absurd rfl (hr n)
  all_goals rfl

theorem decodeFrame_of_decode {rev : Rev} {kind : FrameKind} {n : Nat} {b : List Byte} {i : Instr}
    (h : decode rev kind n b = .ok (i, [])) : decodeFrame rev kind n b = .ok i := by
  rw [decodeFrame, h]

theorem decode_of_decodeFrame {rev : Rev} {kind : FrameKind} {n : Nat} {b : List Byte} {i : Instr}
    (h : decodeFrame rev kind n b = .ok i) : decode rev kind n b = .ok (i, []) := by
  rw [decodeFrame] at h
  split at h
  · cases h
  next hd =>
    cases h
    exact hd
  · cases h

theorem receivedStatus_of_decodeFrame {rev : Rev} {n : Nat} {b : List Byte} {i : Instr}
    (h : decodeFrame rev .status n b = .ok i) : receivedStatus rev n b = i := by
  simp only [receivedStatus, h]

theorem instr_of_decode {rev : Rev} {kind : FrameKind} {n : Nat} {b : List Byte} {i : Instr}
    (h : decode rev kind n b = .ok (i, [])) : (Command.frame kind n b).instr rev = .ok i := by
  have hframe := decodeFrame_of_decode h
  cases kind with
  | request => rw [Command.instr, hframe]
  | status => rw [Command.instr, receivedStatus_of_decodeFrame hframe]

theorem instr_of_undecodable {rev : Rev} {n : Nat} {b : List Byte} {why : DecodeReject}
    (h : decodeFrame rev .request n b = .error why) : (Command.frame .request n b).instr rev = .error (.undecodable why) := by
  rw [Command.instr, h]

/-- A frame has an encoding, and CONSTRUCT has none (R81). -/
theorem not_construct_of_decodeFrame {rev : Rev} {kind : FrameKind} {n : Nat} {b : List Byte} {i : Instr}
    (h : decodeFrame rev kind n b = .ok i) : isConstruct i = false := by
  obtain ⟨w, hw, -⟩ := encodeInvertsDecode rev kind n b [] i (decode_of_decodeFrame h)
  cases i
  case construct => cases hw
  all_goals rfl

/-- Received bytes are the status row whose frame they are, or the decoder's own row. -/
theorem receivedStatus_cases (rev : Rev) (n : Nat) (b : List Byte) :
    decodeFrame rev .status n b = .ok (receivedStatus rev n b) ∨
    (rev = .v1 ∧ receivedStatus rev n b = .decodeStatusV1 n b) ∨
    (rev = .v2 ∧ receivedStatus rev n b = .decodeStatusV2 n b) := by
  cases hd : decodeFrame rev .status n b with
  | ok i => exact .inl (congrArg Except.ok (receivedStatus_of_decodeFrame hd).symm)
  | error why =>
    cases rev with
    | v1 => exact .inr (.inl ⟨rfl, by simp only [receivedStatus, hd]⟩)
    | v2 => exact .inr (.inr ⟨rfl, by simp only [receivedStatus, hd]⟩)

/-- The one command that stands for CONSTRUCT is CONSTRUCT itself. -/
theorem not_construct_of_instr {c : Command} {rev : Rev} {i : Instr} (h : c.instr rev = .ok i)
    (hc : ∀ j, c = .call j → isConstruct j = false) : isConstruct i = false := by
  match c, h with
  | .call j, h =>
    rw [Command.instr] at h
    split at h
    · cases h
      exact hc i rfl
    · cases h
  | .frame .request n b, h =>
    rw [Command.instr] at h
    split at h
    next hd =>
      cases h
      exact not_construct_of_decodeFrame hd
    · cases h
  | .frame .status n b, h =>
    cases h
    rcases receivedStatus_cases rev n b with hd | ⟨-, hd⟩ | ⟨-, hd⟩
    · exact not_construct_of_decodeFrame hd
    · rw [hd]
      rfl
    · rw [hd]
      rfl

/-! ### What a step runs -/

/-- Received bytes, whatever they are, run as DECODE_STATUS of the connection's revision (R98, R99, log 16). -/
theorem exec_receivedStatus {s : State} (hr : s.Ready) (n : Nat) (b : List Byte) :
    exec (receivedStatus s.cfg.rev n b) s = .next { s with ret := .decoded (decodeStatus s.cfg.rev n b) } := by
  rcases receivedStatus_cases s.cfg.rev n b with hd | ⟨hv, hd⟩ | ⟨hv, hd⟩
  · have hdecode := decode_of_decodeFrame hd
    cases hv : s.cfg.rev with
    | v1 =>
      rw [hv] at hdecode
      obtain ⟨id, err, params, check, hp, hi, hb⟩ := eq_of_decodeV1Status hdecode
      rw [List.append_nil] at hb
      rw [hi]
      exact exec_v1Status_of_fits hr hp (by rw [hv, hb])
    | v2 =>
      rw [hv] at hdecode
      obtain ⟨id, instr, err, params, check, hp, hi, hb⟩ := eq_of_decodeV2Status hdecode
      rw [List.append_nil] at hb
      rw [hi]
      exact exec_v2Status_of_fits hr hp (by rw [hv, hb])
  · rw [hd, hv, exec_decodeStatusV1]
    exact answerOn_of_ready hr hv _
  · rw [hd, hv, exec_decodeStatusV2]
    exact answerOn_of_ready hr hv _

/-- Settles O58: a step in Idle by what the pending command stands for, and else by the sequencer. -/
theorem stepRunsTheIssuedInstruction : Obligations.StepRunsTheIssuedInstruction := by
  intro s rest now
  refine ⟨fun i hf hp hw hx => ?_, fun b hr hp => ?_, fun n hr hp => ?_, fun kind n b i hf hp hd => ?_,
    fun n b why hr hp hd => ?_, fun n b hr hp => ?_, fun c hb hf hp hc => ?_, fun hf hp => ?_, fun hf => ?_⟩
  · exact step_of_pending hf hp (instr_of_offered hw hx _)
  · exact step_of_refused hr hp rfl
  · exact step_of_refused hr hp rfl
  · exact step_of_pending hf hp (instr_of_decode hd)
  · exact step_of_refused hr hp (instr_of_undecodable hd)
  · obtain ⟨hb, hf⟩ := hr
    rw [step_of_pending hf hp rfl]
    exact exec_receivedStatus (s := { s.arrive with pending := rest }) ⟨hb, hf⟩ n b
  · cases hi : c.instr s.cfg.rev with
    | error why => exact step_of_refused_unbound hf hb hp hi
    | ok i =>
      rw [step_of_pending hf hp hi]
      exact exec_of_unbound (not_construct_of_instr hi hc) hb
  · exact step_of_waiting hf hp
  · exact step_of_running hf

end Sys2Proof.Proofs
end
